-- ==== Sys2Proof/Word.lean ====
section
/-! DEFINITION. The word types of the block (spec 00_scope.md rules R10, R11): bytes, 16-bit and 32-bit patterns. -/

namespace Sys2Proof

/-- u8: a frame byte, a device id, a command code, a field mask, an operation code (R10). -/
abbrev Byte := BitVec 8

/-- u16: a register address, a status code, a checksum, a motion wire field (R10). -/
abbrev HalfWord := BitVec 16

/-- u32 or i32: a typed register value, a motion sample slot (R10). -/
abbrev Word := BitVec 32

end Sys2Proof
end

