-- ==== Sys2Proof/Syntax.lean ====
section
/-! DEFINITION. The block's instructions: the host operations of 30_encoding.md rule R121, one constructor a row of
spec/opcode_table.json with the operands its rule reads, and the host request record HREQ they arrive in
(10_state.md rule R23, 30_encoding.md rule R120). -/

namespace Sys2Proof

/-- The request record REQ (R23): the `op` byte and typed operands. An operation reads only the fields its rule names. -/
structure Request where
  op : Byte
  dev : Byte := 0
  addr : HalfWord := 0
  size : Byte := 0
  data : List Byte := []
  scalar : Word := 0
  wopt : Byte := 0
  mask : Byte := 0
  cmode : Byte := 0
  tsw : Byte := 0
  n : Byte := 0
  t0 : HalfWord := 0
  t1 : HalfWord := 0
  t2 : HalfWord := 0
  cmd : Byte := 0
  opt : Byte := 0
  hdr : Byte := 0
  rxlen : Byte := 0
  deriving DecidableEq, Repr

/-- The host operations (R121), each with the operands it reads. -/
inductive Instr
  | encode (dev cmd opt : Byte) (data : List Byte)
  | validate (data : List Byte) (cmd hdr : Byte)
  | fieldcount (mask : Byte)
  | memread (dev : Byte) (addr : HalfWord) (size : Byte)
  | memreadU8 (dev : Byte) (addr : HalfWord)
  | memreadI16 (dev : Byte) (addr : HalfWord)
  | memreadU16 (dev : Byte) (addr : HalfWord)
  | memreadI32 (dev : Byte) (addr : HalfWord)
  | memreadU32 (dev : Byte) (addr : HalfWord)
  | memwrite (dev : Byte) (addr : HalfWord) (data : List Byte) (wopt : Byte)
  | memwriteU8 (dev : Byte) (addr : HalfWord) (scalar : Word) (wopt : Byte)
  | memwriteI16 (dev : Byte) (addr : HalfWord) (scalar : Word) (wopt : Byte)
  | memwriteU16 (dev : Byte) (addr : HalfWord) (scalar : Word) (wopt : Byte)
  | memwriteI32 (dev : Byte) (addr : HalfWord) (scalar : Word) (wopt : Byte)
  | memwriteU32 (dev : Byte) (addr : HalfWord) (scalar : Word) (wopt : Byte)
  | motorread (dev mask cmode : Byte)
  | motorwriteSw (dev tsw mask cmode : Byte)
  | motorwriteT (dev n : Byte) (t0 t1 t2 : HalfWord) (mask cmode : Byte)
  | motorwriteT1 (dev : Byte) (t0 : HalfWord) (mask cmode : Byte)
  | motorwriteT2 (dev : Byte) (t0 t1 : HalfWord) (mask cmode : Byte)
  | motorwriteT3 (dev : Byte) (t0 t1 t2 : HalfWord) (mask cmode : Byte)
  | xferFixed (data : List Byte) (rxlen : Byte)
  | xferVar (data : List Byte)
  | xferSend (data : List Byte)
  deriving DecidableEq, Repr

end Sys2Proof
end

