-- ==== Sys2Proof/WellFormed.lean ====
section
/-! DEFINITION. Which requests and instructions the host port can carry: the types give every operand its width, and the
one check left is the `data` field's, "byte list, 0 to 256 bytes" (10_state.md rule R23; 95_test_vectors.md X10: a longer
one cannot be presented). -/

namespace Sys2Proof

/-- The longest `data` operand the request record carries (R23). -/
abbrev maxRequestData : Nat := 256

/-- R23: the request record's `data` is 0 to 256 bytes. -/
def Request.wf (q : Request) : Bool := decide (q.data.length ≤ maxRequestData)

/-- An instruction the host port can carry: its `data` operand, where it has one, fits the request record (R23). -/
def Instr.wf : Instr → Bool
  | .encode _ _ _ data => decide (data.length ≤ maxRequestData)
  | .validate data _ _ => decide (data.length ≤ maxRequestData)
  | .memwrite _ _ data _ => decide (data.length ≤ maxRequestData)
  | .xferFixed data _ => decide (data.length ≤ maxRequestData)
  | .xferVar data => decide (data.length ≤ maxRequestData)
  | .xferSend data => decide (data.length ≤ maxRequestData)
  | .fieldcount _ => true
  | .memread _ _ _ => true
  | .memreadU8 _ _ => true
  | .memreadI16 _ _ => true
  | .memreadU16 _ _ => true
  | .memreadI32 _ _ => true
  | .memreadU32 _ _ => true
  | .memwriteU8 _ _ _ _ => true
  | .memwriteI16 _ _ _ _ => true
  | .memwriteU16 _ _ _ _ => true
  | .memwriteI32 _ _ _ _ => true
  | .memwriteU32 _ _ _ _ => true
  | .motorread _ _ _ => true
  | .motorwriteSw _ _ _ _ => true
  | .motorwriteT _ _ _ _ _ _ _ => true
  | .motorwriteT1 _ _ _ _ => true
  | .motorwriteT2 _ _ _ _ _ => true
  | .motorwriteT3 _ _ _ _ _ _ => true

end Sys2Proof
end

