-- ==== Sys2Proof/Decode.lean ====
section
/-! DEFINITION. Decoding a host request (30_encoding.md rules R120 to R123) and, after it, encoding an instruction as one.
There is no packed instruction word: the `op` byte selects the operation and the other fields are typed operands (R120),
so the decoder reads `op` and then only the fields the operation's rule names. -/

namespace Sys2Proof

/-- Why a request names no operation. -/
inductive DecodeError
  /-- R122: the code is not in the table of R121. The block still answers it (Machine/Schedule.lean). -/
  | reservedOp (op : Byte)
  deriving DecidableEq, Repr

/-- The operation a request asks for (R121), with its operands read as they stand (R123). -/
def decode (q : Request) : Except DecodeError Instr :=
  match q.op.toNat with
  | 0x01 => .ok (.encode q.dev q.cmd q.opt q.data)
  | 0x02 => .ok (.validate q.data q.cmd q.hdr)
  | 0x03 => .ok (.fieldcount q.mask)
  | 0x10 => .ok (.memread q.dev q.addr q.size)
  | 0x11 => .ok (.memreadU8 q.dev q.addr)
  | 0x12 => .ok (.memreadI16 q.dev q.addr)
  | 0x13 => .ok (.memreadU16 q.dev q.addr)
  | 0x14 => .ok (.memreadI32 q.dev q.addr)
  | 0x15 => .ok (.memreadU32 q.dev q.addr)
  | 0x18 => .ok (.memwrite q.dev q.addr q.data q.wopt)
  | 0x19 => .ok (.memwriteU8 q.dev q.addr q.scalar q.wopt)
  | 0x1A => .ok (.memwriteI16 q.dev q.addr q.scalar q.wopt)
  | 0x1B => .ok (.memwriteU16 q.dev q.addr q.scalar q.wopt)
  | 0x1C => .ok (.memwriteI32 q.dev q.addr q.scalar q.wopt)
  | 0x1D => .ok (.memwriteU32 q.dev q.addr q.scalar q.wopt)
  | 0x20 => .ok (.motorread q.dev q.mask q.cmode)
  | 0x21 => .ok (.motorwriteSw q.dev q.tsw q.mask q.cmode)
  | 0x22 => .ok (.motorwriteT q.dev q.n q.t0 q.t1 q.t2 q.mask q.cmode)
  | 0x23 => .ok (.motorwriteT1 q.dev q.t0 q.mask q.cmode)
  | 0x24 => .ok (.motorwriteT2 q.dev q.t0 q.t1 q.mask q.cmode)
  | 0x25 => .ok (.motorwriteT3 q.dev q.t0 q.t1 q.t2 q.mask q.cmode)
  | 0x30 => .ok (.xferFixed q.data q.rxlen)
  | 0x31 => .ok (.xferVar q.data)
  | 0x32 => .ok (.xferSend q.data)
  | _ => .error (.reservedOp q.op)

/-- The request that asks for an instruction, from the table of R121; a field the operation does not read is 0 or the
empty list (R126). -/
def encode : Instr → Request
  | .encode dev cmd opt data => { op := 0x01, dev := dev, cmd := cmd, opt := opt, data := data }
  | .validate data cmd hdr => { op := 0x02, data := data, cmd := cmd, hdr := hdr }
  | .fieldcount mask => { op := 0x03, mask := mask }
  | .memread dev addr size => { op := 0x10, dev := dev, addr := addr, size := size }
  | .memreadU8 dev addr => { op := 0x11, dev := dev, addr := addr }
  | .memreadI16 dev addr => { op := 0x12, dev := dev, addr := addr }
  | .memreadU16 dev addr => { op := 0x13, dev := dev, addr := addr }
  | .memreadI32 dev addr => { op := 0x14, dev := dev, addr := addr }
  | .memreadU32 dev addr => { op := 0x15, dev := dev, addr := addr }
  | .memwrite dev addr data wopt => { op := 0x18, dev := dev, addr := addr, data := data, wopt := wopt }
  | .memwriteU8 dev addr scalar wopt => { op := 0x19, dev := dev, addr := addr, scalar := scalar, wopt := wopt }
  | .memwriteI16 dev addr scalar wopt => { op := 0x1A, dev := dev, addr := addr, scalar := scalar, wopt := wopt }
  | .memwriteU16 dev addr scalar wopt => { op := 0x1B, dev := dev, addr := addr, scalar := scalar, wopt := wopt }
  | .memwriteI32 dev addr scalar wopt => { op := 0x1C, dev := dev, addr := addr, scalar := scalar, wopt := wopt }
  | .memwriteU32 dev addr scalar wopt => { op := 0x1D, dev := dev, addr := addr, scalar := scalar, wopt := wopt }
  | .motorread dev mask cmode => { op := 0x20, dev := dev, mask := mask, cmode := cmode }
  | .motorwriteSw dev tsw mask cmode => { op := 0x21, dev := dev, tsw := tsw, mask := mask, cmode := cmode }
  | .motorwriteT dev n t0 t1 t2 mask cmode =>
      { op := 0x22, dev := dev, n := n, t0 := t0, t1 := t1, t2 := t2, mask := mask, cmode := cmode }
  | .motorwriteT1 dev t0 mask cmode => { op := 0x23, dev := dev, t0 := t0, mask := mask, cmode := cmode }
  | .motorwriteT2 dev t0 t1 mask cmode => { op := 0x24, dev := dev, t0 := t0, t1 := t1, mask := mask, cmode := cmode }
  | .motorwriteT3 dev t0 t1 t2 mask cmode =>
      { op := 0x25, dev := dev, t0 := t0, t1 := t1, t2 := t2, mask := mask, cmode := cmode }
  | .xferFixed data rxlen => { op := 0x30, data := data, rxlen := rxlen }
  | .xferVar data => { op := 0x31, data := data }
  | .xferSend data => { op := 0x32, data := data }

/-- The request whose bits, numbered as spec/opcode_table.json numbers them, are `w`: the table's one word is the `op`
byte (match and mask, R120), and every typed operand is 0 or empty. -/
def Request.ofTableWord (nbits w : Nat) : Request := { op := BitVec.ofNat 8 (w % 2 ^ nbits) }

/-- What the decoder reads from an opcode-table word. -/
def decodeTableWord (nbits w : Nat) : Option Instr :=
  match decode (Request.ofTableWord nbits w) with
  | .ok i => some i
  | .error _ => none

end Sys2Proof
end

