-- ==== Sys2Proof/Config.lean ====
section
/-! DEFINITION. What is fixed for the life of the block but left open by the spec (00_scope.md rule R9,
70_reset_and_hazards.md rule R304): the command codes, the error codes, the checksum and the other parameters,
with the constraints the spec puts on them, and the line oracle's draws (20_memory.md rule R66).
`Config.hw` is the block's configuration: an opaque constant, so that a statement about the machine holds for EVERY
configuration that meets the constraints. -/

namespace Sys2Proof

/-- The ten wire commands of rule R97. -/
inductive Command
  | memRead | memWrite | flashLoad | flashSave | motorRead | motorWrite | sysRead | sysWrite | reboot | factoryReset
  deriving DecidableEq, Repr

/-- The six error classes of the status high byte (rule R273). -/
inductive ErrorClass
  | timeout | crc | format | send | recv | mdec
  deriving DecidableEq, Repr

/-- The command codes of the spec's test instantiation TI (95_test_vectors.md section 0, decision D41).
NOT the hardware's codes: they only witness that the constraints of `Config` can be met. -/
def Command.testCode : Command → Byte
  | .memRead => 0x03
  | .memWrite => 0x04
  | .motorRead => 0x05
  | .motorWrite => 0x06
  | .flashLoad => 0x07
  | .flashSave => 0x08
  | .sysRead => 0x09
  | .sysWrite => 0x0A
  | .reboot => 0x0B
  | .factoryReset => 0x0C

/-- The default error codes, one-hot (rule R273, decision D5). -/
def ErrorClass.defaultCode : ErrorClass → Byte
  | .timeout => 0x01
  | .crc => 0x02
  | .format => 0x04
  | .send => 0x08
  | .recv => 0x10
  | .mdec => 0x20

theorem Command.testCode_inj (a b : Command) : a.testCode = b.testCode → a = b := by
  cases a <;> cases b <;> decide

theorem Command.testCode_lt (a : Command) : a.testCode < 0x80 := by
  cases a <;> decide

theorem ErrorClass.defaultCode_inj (a b : ErrorClass) : a.defaultCode = b.defaultCode → a = b := by
  cases a <;> cases b <;> decide

theorem ErrorClass.defaultCode_ne (a : ErrorClass) : a.defaultCode ≠ 0 := by
  cases a <;> decide

/-- The open parameters of rule R9 that some rule reads or names, with the constraints the spec states.
The default values of the fields are only a witness that the constraints can be met (`deriving Inhabited`). -/
structure Config where
  /-- `CRC16`, a total function of a byte list and nothing more (R13, D4). -/
  crc16 : List Byte → HalfWord := fun _ => 0
  /-- `CMD_*` (R97). -/
  command : Command → Byte := Command.testCode
  /-- "each a distinct single-byte code" (R97, D3). -/
  command_inj : ∀ a b, command a = command b → a = b := by exact Command.testCode_inj
  /-- "each is < 0x80" (R97, D3). -/
  command_lt : ∀ a, command a < 0x80 := by exact Command.testCode_lt
  /-- `E_*` (R273). -/
  errorCode : ErrorClass → Byte := ErrorClass.defaultCode
  /-- "nonzero and pairwise distinct" (R273, D5). -/
  errorCode_inj : ∀ a b, errorCode a = errorCode b → a = b := by exact ErrorClass.defaultCode_inj
  errorCode_ne : ∀ a, errorCode a ≠ 0 := by exact ErrorClass.defaultCode_ne
  /-- `POS_CTRL_MASK`, which must be nonzero (R9, D17). -/
  posCtrlMask : Byte := 0x01
  posCtrlMask_ne : posCtrlMask ≠ 0 := by decide
  /-- `NREQ` less one: there is at least one requester (R9, D24). -/
  extraRequesters : Nat := 0
  /-- `T_TIMEOUT`, documentary: no rule reads it (R9, D22). -/
  timeoutDuration : Nat := 0
  /-- `BROADCAST_ID`: no rule reads it (R9, D27). -/
  broadcastId : Byte := 0
  deriving Inhabited

/-- `NREQ`, the number of requesters sharing the host port (R9, R17). -/
def Config.nreq (c : Config) : Nat := c.extraRequesters + 1

/-- The configuration of the block. Opaque: nothing can be proved of it but the constraints (log entry 1). -/
opaque Config.hw : Config

/-- The line oracle (R66), a draw under no law each: whether the send in progress completes … (log entry 2) -/
opaque Config.sendCompletes : Nat → Bool

/-- … whether the receive timeout fires before the next byte arrives … (R66 (b)) -/
opaque Config.timeoutFires : Nat → Bool

/-- … and the value of the next received byte (R66 (a)). -/
opaque Config.lineByte : Nat → Byte

end Sys2Proof
end

