-- ==== Sys2Proof/Machine/Consts.lean ====
section
/-! DEFINITION. The constants of 00_scope.md rules R8 and R9 that the spec states or decides. -/

namespace Sys2Proof.Machine

/-- Both header bytes of every frame (R8, R93). -/
def HDR : Byte := 0xFE

/-- Fixed bytes before the payload (R8). -/
abbrev NFIX : Nat := 6

/-- Checksum bytes (R8). -/
abbrev NCRC : Nat := 2

/-- A frame with an empty payload (R8: NFIX + NCRC). -/
abbrev MINFRAME : Nat := 8

/-- The longest frame the one-byte length field can declare (R8). -/
abbrev MAXFRAME : Nat := 255

/-- The longest payload (R8: MAXFRAME - MINFRAME). -/
abbrev MAXPAYLOAD : Nat := 247

/-- Bytes of each transfer buffer (R8, R27, R28). -/
abbrev BUFSIZE : Nat := 256

/-- Largest size MEMREAD accepts (R8). -/
abbrev MEMREAD_MAX : Nat := 243

/-- Longest data MEMWRITE accepts (R8). -/
abbrev MEMWRITE_MAX : Nat := 244

/-- The 1-byte sentinel (R8). -/
def SENT8 : Byte := 0xFF

/-- The 2-byte sentinel (R8). -/
def SENT16 : HalfWord := 0x7FFF

/-- The 4-byte sentinel (R8). -/
def SENT32 : Word := 0x7FFFFFFF

/-- The motion sample sentinel, 32767 as an i32 (R9, R199). -/
def MOTOR_SENTINEL : Word := 0x7FFF

/-- The field mask that asks for no read-back (R9, R109). -/
def NORETURN : Byte := 0x00

/-- Bytes in the prefix of a variable-length receive (R9, R112). -/
abbrev VAR_PREFIX : Nat := 4

/-- The most targets a MOTORWRITE_T carries (R8). -/
abbrev MAXTARGETS : Nat := 3

/-- The torque-switch states of rule R111, in listing order. -/
def TORQUE_ON : Byte := 0x01
def TORQUE_FREE : Byte := 0x02
def TORQUE_BRAKE : Byte := 0x04
def TORQUE_HOLD : Byte := 0x08

/-- `TSW_SET` (R8): the values MOTORWRITE_SW accepts. -/
def TSW_SET : List Byte := [TORQUE_ON, TORQUE_FREE, TORQUE_BRAKE, TORQUE_HOLD]

end Sys2Proof.Machine
end

