-- ==== Sys2Proof/Machine/State.lean ====
section
/-! DEFINITION. The state of the machine: the block's own tuple of 10_state.md rule R21, and beside it what stands at its
two ports (the host request port and the line), as plain data. Which field is the spec's and which is the model's own is
said at each field and in INVENTORY.md under State. -/

namespace Sys2Proof.Machine

/-- `SEQ` (R24). No state between two steps is BUILD: it begins and ends inside one atomic Present step (R248, R249). -/
inductive Seq
  | idle | build | xfer | check
  deriving DecidableEq, Repr

/-- `TSTATE` (R26). -/
inductive TState
  | idle | send | rxFix | rxPre | rxRest
  deriving DecidableEq, Repr

/-- `TSHAPE` (R26). -/
inductive TShape
  | fixed | var | sendOnly
  deriving DecidableEq, Repr

/-- `TRES` (R26): the transfer's success flag and the number of bytes in its result (0 to 256). -/
structure TRes where
  ok : Bool
  rxLen : Nat
  deriving DecidableEq, Repr

/-- A transfer buffer: (offset, byte) pairs, offsets strictly rising. An offset that is not listed holds NO VALUE
(R29, R301): reading it is a fault. -/
abbrev Memory := List Host.Cell

/-- The offsets are at least `lo`, strictly rising, and inside the 256-byte buffer (R61). -/
def Memory.risingFrom (lo : Nat) : Memory → Bool
  | [] => true
  | (k, _) :: rest => decide (lo ≤ k) && decide (k < 256) && Memory.risingFrom (k + 1) rest

/-- The canonical form of a buffer. -/
def Memory.wf (m : Memory) : Bool := Memory.risingFrom 0 m

/-- `CUR` when an operation holds the transport (R21, R249): the latched request, and which requester presented it
(the response goes to "the requester that presented it", R13). -/
structure Current where
  requester : Nat
  req : Request
  deriving DecidableEq, Repr

/-- The block's state: exactly the tuple of R21. -/
structure Block where
  seq : Seq
  busy : Bool
  tstate : TState
  tshape : TShape
  tres : TRes
  txbuf : Memory
  txlen : Nat
  rxbuf : Memory
  rxcnt : Nat
  rxtgt : Nat
  cur : Option Current
  deriving DecidableEq, Repr

/-- The motion sample: eight i32 slots in canonical order (R33). -/
structure Sample where
  position : Word
  speed : Word
  current : Word
  torque : Word
  pwm : Word
  motorTemp : Word
  cpuTemp : Word
  voltage : Word
  deriving DecidableEq, Repr

/-- The response record's fields beside `status` (R31); a field an operation's rule does not write is absent. -/
structure Outputs where
  ok : Option Bool := none
  data : Option (List Byte) := none
  value : Option Word := none
  sample : Option Sample := none
  tswState : Option Byte := none
  count : Option Byte := none
  rxLen : Option (BitVec 9) := none
  deriving DecidableEq, Repr

/-- The response record `RESP` (R31). -/
structure Response where
  status : HalfWord
  outs : Outputs
  deriving DecidableEq, Repr

/-- A response delivered to a requester (R13 `finish`, R248). -/
structure Delivery where
  requester : Nat
  resp : Response
  deriving DecidableEq, Repr

/-- How a transmission on the line ended: as the line reported it (R232), or cut short by a reset (R303). -/
inductive SendEnd
  | completed | failed | cut
  deriving DecidableEq, Repr

/-- One transmission the line took (R65, R232). -/
structure Sent where
  bytes : List Byte
  how : SendEnd
  deriving DecidableEq, Repr

/-- The line agent's steps (R232 to R234). -/
inductive LineMove
  | txDone (ok : Bool)
  | rxByte (b : Byte)
  | rxTimeout
  deriving DecidableEq, Repr

/-- What the outside of the block does next: a requester presents (R248), the line moves, the sequencer is given its turn
to take a CHECK step (R244, R252), or the block is reset (R303; `sent` is how many bytes of a frame being sent had
reached the line, the environment's choice). -/
inductive Input
  | present (r : Nat) (req : Request)
  | line (move : LineMove)
  | sequencer
  | reset (sent : Nat)
  deriving DecidableEq, Repr

/-- What the host request port holds: nothing yet, the request being handled and its requester, or the resumption of the
operation that requester `r` presented earlier (its CHECK step, R244). -/
inductive Port
  | quiet
  | request (r : Nat) (req : Request)
  | resume (r : Nat)
  deriving DecidableEq, Repr

/-- The machine's state. -/
structure State where
  /-- The block's tuple (R21). -/
  block : Block
  /-- MODEL: what the host request port holds; it tells a meaning whose step it is taking. -/
  port : Port
  /-- MODEL: what the outside will do, next first; when it is empty the line acts by its oracle (R66, R235). -/
  inputs : List Input
  /-- MODEL: the responses delivered so far, oldest first (R31: copies, which stay valid). -/
  outbox : List Delivery
  /-- MODEL: the transmissions the line took so far, oldest first. -/
  line : List Sent
  /-- MODEL: how many moves the line has drawn from its oracle. -/
  draws : Nat
  deriving DecidableEq, Repr

/-- Why the machine stops. No reachable step raises one (safe: a stop proves nothing false of the block). -/
inductive Fault
  /-- Raised by a buffer read of a byte that holds no value (R29, R301, 93_implementation_defined.md I7). Safe. -/
  | invalidByte
  /-- Raised by a buffer write past offset 255 (R61: offsets are 0..255). Safe. -/
  | outsideBuffer
  /-- Raised where an operation's step is taken with no requester's operation at the port or in CUR. Safe. -/
  | noRequest
  deriving DecidableEq, Repr

/-- Why an instruction has no meaning in the model. -/
inductive Refusal
  /-- Raised by an arm of Dispatch.lean whose instruction is not modelled yet; there is none. Safe. -/
  | notModelled (mnemonic : String)
  deriving DecidableEq, Repr

/-- The block right after reset (R301, R36). The values of `tshape` and `tres`, which R301 leaves unspecified and no rule
reads before writing, are this model's (log entry 5). The buffers hold no value. -/
def Block.reset : Block where
  seq := .idle
  busy := false
  tstate := .idle
  tshape := .fixed
  tres := { ok := false, rxLen := 0 }
  txbuf := []
  txlen := 0
  rxbuf := []
  rxcnt := 0
  rxtgt := 0
  cur := none

/-- The machine right after reset: the block as R301 says, nothing at the ports, nothing delivered or sent yet. -/
def State.reset : State where
  block := Block.reset
  port := .quiet
  inputs := []
  outbox := []
  line := []
  draws := 0

end Sys2Proof.Machine
end

