-- ==== Sys2Proof/Machine/Operands.lean ====
section
/-! DEFINITION. Operand forms: little-endian serialisation and its inverse (00_scope.md rule R12, 20_memory.md rule R64),
and the motion fields a mask selects (30_encoding.md rule R110, 42_motion.md rules R191, R192, R198). -/

namespace Sys2Proof.Machine

/-- `le16(v)` (R12). -/
def le16 (v : HalfWord) : List Byte := [v.extractLsb' 0 8, v.extractLsb' 8 8]

/-- `le32(v)` (R12). -/
def le32 (v : Word) : List Byte :=
  [v.extractLsb' 0 8, v.extractLsb' 8 8, v.extractLsb' 16 8, v.extractLsb' 24 8]

/-- `xs[i]` (R12). Every use stands behind a check that the list is long enough, or in a CHECK step whose transfer
succeeded with that many bytes; past the end it is 0 (log entry 8). -/
def byteOf (xs : List Byte) (i : Nat) : Byte := xs.getD i 0

/-- `xs[i..i+n)` (R12). -/
def slice (xs : List Byte) (i n : Nat) : List Byte := (xs.drop i).take n

/-- `LE16(xs, i)` (R12): the byte at i is the low one. -/
def LE16 (xs : List Byte) (i : Nat) : HalfWord := byteOf xs (i + 1) ++ byteOf xs i

/-- `LE32(xs, i)` (R12). -/
def LE32 (xs : List Byte) (i : Nat) : Word := LE16 xs (i + 2) ++ LE16 xs i

/-- The eight canonical motion fields (R110). -/
inductive Field
  | position | speed | current | torque | pwm | motorTemp | cpuTemp | voltage
  deriving DecidableEq, Repr

/-- Canonical order (R110). -/
def Field.all : List Field := [.position, .speed, .current, .torque, .pwm, .motorTemp, .cpuTemp, .voltage]

/-- A field's place in canonical order, and its bit of the mask (`FIELD_BIT(i)` is `1 << i`: R9, R110). -/
def Field.index : Field → Nat
  | .position => 0
  | .speed => 1
  | .current => 2
  | .torque => 3
  | .pwm => 4
  | .motorTemp => 5
  | .cpuTemp => 6
  | .voltage => 7

/-- Whether a FieldSelectionMask selects a field (R110). -/
def Field.selected (f : Field) (mask : Byte) : Bool := mask.getLsbD f.index

/-- `popcount8(m)` (R11). -/
def popcount8 (m : Byte) : Nat := (Field.all.filter (·.selected m)).length

/-- `FieldCount(m)`, the byte size of a field set (R191). -/
def fieldCount (m : Byte) : Nat := 2 * popcount8 m

/-- The number of selected fields before `f`: `f` is the j-th selected field, j from 0 (R192). -/
def Field.rank (f : Field) (mask : Byte) : Nat :=
  (Field.all.filter (fun g => g.selected mask && decide (g.index < f.index))).length

/-- `decodeField` (R198): position by the position-control bit of `cmode`, voltage unsigned, the others signed. -/
def decodeField (posCtrlMask : Byte) (f : Field) (raw : HalfWord) (cmode : Byte) : Word :=
  match f with
  | .position => if cmode &&& posCtrlMask ≠ 0 then raw.signExtend 32 else raw.setWidth 32
  | .voltage => raw.setWidth 32
  | .speed => raw.signExtend 32
  | .current => raw.signExtend 32
  | .torque => raw.signExtend 32
  | .pwm => raw.signExtend 32
  | .motorTemp => raw.signExtend 32
  | .cpuTemp => raw.signExtend 32

/-- A sample from its value in each slot. -/
def Sample.ofFields (g : Field → Word) : Sample :=
  { position := g .position, speed := g .speed, current := g .current, torque := g .torque, pwm := g .pwm,
    motorTemp := g .motorTemp, cpuTemp := g .cpuTemp, voltage := g .voltage }

/-- A sample's slot (R33). -/
def Sample.slot (s : Sample) : Field → Word
  | .position => s.position
  | .speed => s.speed
  | .current => s.current
  | .torque => s.torque
  | .pwm => s.pwm
  | .motorTemp => s.motorTemp
  | .cpuTemp => s.cpuTemp
  | .voltage => s.voltage

/-- The sample a read-back frame carries (R192, R194): a selected field from its two bytes at `7 + 2j`, the sentinel in
every other slot. -/
def decodeSample (posCtrlMask mask cmode : Byte) (rx : List Byte) : Sample :=
  Sample.ofFields fun f =>
    if f.selected mask then decodeField posCtrlMask f (LE16 rx (7 + 2 * f.rank mask)) cmode else MOTOR_SENTINEL

/-- Every slot at the sentinel (R199). -/
def sentinelSample : Sample := Sample.ofFields fun _ => MOTOR_SENTINEL

end Sys2Proof.Machine
end

