-- ==== Sys2Proof/Machine/Flags.lean ====
section
/-! DEFINITION. The status composer and the error model (60_exceptions.md). The block has no condition codes: its one flag
is BUSY (10_state.md rule R32), whose computation is `acquire` and `finish` in Ops.lean. -/

namespace Sys2Proof.Machine

/-- `(TransportErrorClass << 8) | DeviceStatusByte` (R30). -/
def composite (cls dev : Byte) : HalfWord := cls ++ dev

/-- `status[15:8]`, the error class (R30). -/
def errorClassOf (st : HalfWord) : Byte := st.extractLsb' 8 8

/-- `status[7:0]`, the device status byte (R30). -/
def deviceStatusOf (st : HalfWord) : Byte := st.extractLsb' 0 8

/-- R276: "any transport-error bit set in the status". -/
def isError (st : HalfWord) : Bool := decide (errorClassOf st ≠ 0)

/-- A success: high byte 0, low byte the device status byte (R272). -/
def success (dev : Byte) (outs : Outputs) : Response := { status := composite 0 dev, outs := outs }

/-- What `raise E` answers: the class in the high byte, 0 in the low byte (R13, R274), with the operation's sentinels. -/
def raised (c : Config) (e : ErrorClass) (outs : Outputs) : Response :=
  { status := composite (c.errorCode e) 0, outs := outs }

/-- Motion decode failure: the device status byte is kept (R197, R275). -/
def decodeFailed (c : Config) (dev : Byte) (outs : Outputs) : Response :=
  { status := composite (c.errorCode .mdec) dev, outs := outs }

end Sys2Proof.Machine
end

