-- ==== Sys2Proof/Machine/Ops.lean ====
section
/-! DEFINITION. The named operations every meaning is made of: the buffer primitives MemRead and MemWrite, and the
sequencer's `finish`, `raise`, `acquire` and `StartTransfer` (00_scope.md rule R13, 43_transport.md). The block has no
trap: `raise` is the one way an operation ends in an error, and it returns to idle by the same `finish` as a success
(60_exceptions.md rules R271, R280, R281). -/

namespace Sys2Proof.Machine

/-- The byte listed at an offset, if any. -/
def Memory.byteAt? : Memory → Nat → Option Byte
  | [], _ => none
  | (k, v) :: rest, a => if a = k then some v else Memory.byteAt? rest a

/-- The buffer with `b` at offset `a`, in canonical form. -/
def Memory.store : Memory → Nat → Byte → Memory
  | [], a, b => [(a, b)]
  | (k, v) :: rest, a, b =>
    if a < k then (a, b) :: (k, v) :: rest
    else if a = k then (a, b) :: rest
    else (k, v) :: Memory.store rest a b

/-- `MemWrite(B, i, n, v)` for the bytes of v in order (R13). -/
def memWrite (m : Memory) (i : Nat) : List Byte → Except Fault Memory
  | [] => .ok m
  | b :: bs => if i < BUFSIZE then memWrite (m.store i b) (i + 1) bs else .error .outsideBuffer

/-- `MemRead(B, i, n)` as the bytes in order, of a buffer whose first `valid` bytes are valid (R13, R29): a byte that
holds no value is a fault, not a value. -/
def memRead (m : Memory) (valid i : Nat) : Nat → Except Fault (List Byte)
  | 0 => .ok []
  | n + 1 =>
    if i < valid then
      match m.byteAt? i with
      | none => .error .invalidByte
      | some b =>
        match memRead m valid (i + 1) n with
        | .ok bs => .ok (b :: bs)
        | .error f => .error f
    else .error .invalidByte

/-- Go on with a buffer operation's value, or stop with its fault. -/
def orFault {α : Type} (x : Except Fault α) (k : α → Host.Outcome State Fault Refusal) :
    Host.Outcome State Fault Refusal :=
  match x with
  | .ok a => k a
  | .error f => .fault f

/-- Deliver a response to the requester that presented the operation (R13, R31). -/
def State.deliver (s : State) (r : Nat) (resp : Response) : State :=
  { s with outbox := s.outbox ++ [{ requester := r, resp := resp }] }

/-- What `finish` does to the block when the finishing operation holds the transport (R13). -/
def Block.release (b : Block) : Block :=
  { b with busy := false, tstate := .idle, seq := .idle, cur := none }

/-- `finish(st, outs)` (R13): deliver the response, and give the transport up where the operation holds it, which it does
exactly when this is its CHECK step. An operation that finishes at its Present step changes no block state. -/
def finish (resp : Response) (s : State) : Host.Outcome State Fault Refusal :=
  match s.port with
  | .quiet => .fault .noRequest
  | .request r _ => .next (s.deliver r resp)
  | .resume r => .next ({ s with block := s.block.release }.deliver r resp)

/-- `raise E` (R13). -/
def raise (c : Config) (e : ErrorClass) (outs : Outputs) (s : State) : Host.Outcome State Fault Refusal :=
  finish (raised c e outs) s

/-- The count a transfer's first receive phase waits for (R236). -/
def firstTarget (shape : TShape) (m : Nat) : Nat :=
  match shape with
  | .fixed => m
  | .var => VAR_PREFIX
  | .sendOnly => 0

/-- The block once StartTransfer has put `tx` in TXBUF, which is now `buf` (R236). -/
def Block.start (b : Block) (shape : TShape) (tx : List Byte) (m : Nat) (buf : Memory) : Block :=
  { b with
    txbuf := buf
    txlen := tx.length
    tshape := shape
    rxcnt := 0
    rxtgt := firstTarget shape m
    tstate := .send
    seq := .xfer }

/-- `StartTransfer(shape, tx, m)` (R236): the only writer of TXBUF and TXLEN. -/
def startTransfer (shape : TShape) (tx : List Byte) (m : Nat) (s : State) : Host.Outcome State Fault Refusal :=
  orFault (memWrite s.block.txbuf 0 tx) fun buf => .next { s with block := s.block.start shape tx m buf }

/-- The block once `acquire` has taken the transport for an operation (R249). -/
def Block.take (b : Block) (cur : Current) : Block :=
  { b with busy := true, cur := some cur, seq := .build }

/-- `acquire(rst, routs)` (R249, R250): a request that finds BUSY set finishes at once with the class `cls` and its
sentinels, and otherwise takes the transport and builds. -/
def acquire (c : Config) (cls : ErrorClass) (outs : Outputs)
    (build : State → Host.Outcome State Fault Refusal) (s : State) : Host.Outcome State Fault Refusal :=
  match s.port with
  | .quiet => .fault .noRequest
  | .resume _ => .fault .noRequest
  | .request r req =>
    if s.block.busy then raise c cls outs s
    else build { s with block := s.block.take ⟨r, req⟩ }

/-- An operation that uses the transport, as its rule's pseudocode gives it: the argument check, the class a transport
failure or a rejection reports, the sentinel outputs of every error, the request frame, the transfer's shape and expected
receive count, and the remainder of the pseudocode after the transport call. -/
structure Transaction where
  argsOk : Bool
  failClass : ErrorClass
  sentinel : Outputs
  tx : List Byte
  shape : TShape
  m : Nat
  check : Bool → List Byte → Response

/-- Run a transport operation. At its Present step: argument check, busy guard, build and start (R248, R249, R277). At
its CHECK step: the remainder of its pseudocode, which reads only TRES and RXBUF[0..TRES.rxLen), and `finish` (R244). -/
def transact (c : Config) (op : Transaction) (s : State) : Host.Outcome State Fault Refusal :=
  match s.port with
  | .quiet => .fault .noRequest
  | .request _ _ =>
    if op.argsOk then acquire c op.failClass op.sentinel (startTransfer op.shape op.tx op.m) s
    else raise c .format op.sentinel s
  | .resume _ =>
    orFault (memRead s.block.rxbuf s.block.rxcnt 0 s.block.tres.rxLen) fun rx =>
      finish (op.check s.block.tres.ok rx) s

/-- A reserved operation code (R122): `E_FORMAT << 8` and no other response field, no block state touched. -/
def execReserved (s : State) : Host.Outcome State Fault Refusal := raise Config.hw .format {} s

end Sys2Proof.Machine
end

