-- ==== Sys2Proof/Machine/Codec.lean ====
section
/-! DEFINITION. The frame codec: `Encode`, `Validate` and the host operations ENCODE and VALIDATE (40_frame_codec.md). -/

namespace Sys2Proof.Machine

/-- `Encode(dev, cmd, opt, p)` (R131), the generic frame of rule R100. -/
def frame (c : Config) (dev cmd opt : Byte) (p : List Byte) : List Byte :=
  let h := [HDR, HDR, dev, BitVec.ofNat 8 (MINFRAME + p.length), cmd, opt] ++ p
  h ++ le16 (c.crc16 h)

/-- Verify (R132): recompute over all but the last two bytes and compare. -/
def verify (c : Config) (f : List Byte) : Bool :=
  decide (LE16 f (f.length - 2) = c.crc16 (f.take (f.length - 2)))

/-- `Validate(f, ecmd, ehdr)` (R133): the checks in their order, the first that fails reported. -/
def validate (c : Config) (f : List Byte) (ecmd ehdr : Byte) : Except ErrorClass Byte :=
  if f.length < MINFRAME then .error .recv
  else if byteOf f 0 ≠ ehdr ∨ byteOf f 1 ≠ ehdr then .error .recv
  else if byteOf f 4 &&& 0x7F ≠ ecmd then .error .recv
  else if verify c f then .ok (byteOf f 5)
  else .error .crc

/-- ENCODE (R131): its response. -/
def encodeResponse (c : Config) (dev cmd opt : Byte) (data : List Byte) : Response :=
  if data.length ≤ MAXPAYLOAD then success 0 { data := some (frame c dev cmd opt data) }
  else raised c .format {}

/-- VALIDATE (R133): its response. -/
def validateResponse (c : Config) (data : List Byte) (cmd hdr : Byte) : Response :=
  match validate c data cmd hdr with
  | .ok st => success st {}
  | .error e => raised c e {}

/-- ENCODE, op 0x01 (R131). -/
def execEncode (dev cmd opt : Byte) (data : List Byte) (s : State) : Host.Outcome State Fault Refusal :=
  finish (encodeResponse Config.hw dev cmd opt data) s

/-- VALIDATE, op 0x02 (R133). -/
def execValidate (data : List Byte) (cmd hdr : Byte) (s : State) : Host.Outcome State Fault Refusal :=
  finish (validateResponse Config.hw data cmd hdr) s

end Sys2Proof.Machine
end

