-- ==== Sys2Proof/Machine/Register.lean ====
section
/-! DEFINITION. Register access: MEMREAD, MEMWRITE and their typed forms (41_register_access.md). -/

namespace Sys2Proof.Machine

/-- The remainder of an operation after its round trip, up to what it does with a validated frame's status byte: a
failed transfer raises `E_TIMEOUT`, a frame that does not validate raises its class (R151, R165, R194). -/
def afterRoundTrip (c : Config) (ecmd : Byte) (sentinel : Outputs) (ok : Bool) (rx : List Byte)
    (onValid : Byte → Response) : Response :=
  if ok then
    match validate c rx ecmd HDR with
    | .error e => raised c e sentinel
    | .ok st => onValid st
  else raised c .timeout sentinel

/-- MEMREAD (R151). -/
def memread (c : Config) (dev : Byte) (addr : HalfWord) (size : Byte) : Transaction :=
  let sentinel : Outputs := { data := some (List.replicate size.toNat SENT8) }
  { argsOk := decide (1 ≤ size.toNat ∧ size.toNat ≤ MEMREAD_MAX)
    failClass := .timeout
    sentinel := sentinel
    tx := frame c dev (c.command .memRead) 0x00 (le16 addr ++ [size])
    shape := .fixed
    m := MINFRAME + size.toNat
    check := fun ok rx => afterRoundTrip c (c.command .memRead) sentinel ok rx fun st =>
      success st { data := some (slice rx NFIX size.toNat) } }

/-- The typed-read template (R153): MEMREAD of a fixed size, its status unchanged, and the payload decoded or, on an
error status, the width's sentinel. -/
def typedRead (c : Config) (dev : Byte) (addr : HalfWord) (size : Byte) (sent : Word)
    (decodeAs : List Byte → Word) : Transaction :=
  let base := memread c dev addr size
  { base with
    sentinel := { value := some sent }
    check := fun ok rx =>
      let r := base.check ok rx
      { status := r.status
        outs := { value := some (if isError r.status then sent else decodeAs (r.outs.data.getD [])) } } }

/-- MEMREAD_U8 (R155). -/
def memreadU8 (c : Config) (dev : Byte) (addr : HalfWord) : Transaction :=
  typedRead c dev addr 1 (SENT8.setWidth 32) fun d => (byteOf d 0).setWidth 32

/-- MEMREAD_I16 (R156). -/
def memreadI16 (c : Config) (dev : Byte) (addr : HalfWord) : Transaction :=
  typedRead c dev addr 2 (SENT16.setWidth 32) fun d => (LE16 d 0).setWidth 32

/-- MEMREAD_U16 (R157). -/
def memreadU16 (c : Config) (dev : Byte) (addr : HalfWord) : Transaction :=
  typedRead c dev addr 2 (SENT16.setWidth 32) fun d => (LE16 d 0).setWidth 32

/-- MEMREAD_I32 (R158): all four bytes (R154). -/
def memreadI32 (c : Config) (dev : Byte) (addr : HalfWord) : Transaction :=
  typedRead c dev addr 4 SENT32 fun d => LE32 d 0

/-- MEMREAD_U32 (R159): all four bytes (R154). -/
def memreadU32 (c : Config) (dev : Byte) (addr : HalfWord) : Transaction :=
  typedRead c dev addr 4 SENT32 fun d => LE32 d 0

/-- What follows a fixed round trip whose response carries no payload (R104, R109): the device status. -/
def acknowledged (c : Config) (ecmd : Byte) (ok : Bool) (rx : List Byte) : Response :=
  afterRoundTrip c ecmd {} ok rx fun st => success st {}

/-- MEMWRITE (R165). -/
def memwrite (c : Config) (dev : Byte) (addr : HalfWord) (data : List Byte) (wopt : Byte) : Transaction :=
  { argsOk := decide (1 ≤ data.length ∧ data.length ≤ MEMWRITE_MAX)
    failClass := .timeout
    sentinel := {}
    tx := frame c dev (c.command .memWrite) wopt (le16 addr ++ data)
    shape := .fixed
    m := MINFRAME
    check := acknowledged c (c.command .memWrite) }

/-- MEMWRITE_U8 (R169). -/
def memwriteU8 (c : Config) (dev : Byte) (addr : HalfWord) (scalar : Word) (wopt : Byte) : Transaction :=
  memwrite c dev addr [scalar.setWidth 8] wopt

/-- MEMWRITE_I16 (R170). -/
def memwriteI16 (c : Config) (dev : Byte) (addr : HalfWord) (scalar : Word) (wopt : Byte) : Transaction :=
  memwrite c dev addr (le16 (scalar.setWidth 16)) wopt

/-- MEMWRITE_U16 (R171). -/
def memwriteU16 (c : Config) (dev : Byte) (addr : HalfWord) (scalar : Word) (wopt : Byte) : Transaction :=
  memwrite c dev addr (le16 (scalar.setWidth 16)) wopt

/-- MEMWRITE_I32 (R172). -/
def memwriteI32 (c : Config) (dev : Byte) (addr : HalfWord) (scalar : Word) (wopt : Byte) : Transaction :=
  memwrite c dev addr (le32 scalar) wopt

/-- MEMWRITE_U32 (R173). -/
def memwriteU32 (c : Config) (dev : Byte) (addr : HalfWord) (scalar : Word) (wopt : Byte) : Transaction :=
  memwrite c dev addr (le32 scalar) wopt

/-- MEMREAD, op 0x10 (R151). -/
def execMemread (dev : Byte) (addr : HalfWord) (size : Byte) (s : State) : Host.Outcome State Fault Refusal :=
  transact Config.hw (memread Config.hw dev addr size) s

/-- MEMREAD_U8, op 0x11 (R155). -/
def execMemreadU8 (dev : Byte) (addr : HalfWord) (s : State) : Host.Outcome State Fault Refusal :=
  transact Config.hw (memreadU8 Config.hw dev addr) s

/-- MEMREAD_I16, op 0x12 (R156). -/
def execMemreadI16 (dev : Byte) (addr : HalfWord) (s : State) : Host.Outcome State Fault Refusal :=
  transact Config.hw (memreadI16 Config.hw dev addr) s

/-- MEMREAD_U16, op 0x13 (R157). -/
def execMemreadU16 (dev : Byte) (addr : HalfWord) (s : State) : Host.Outcome State Fault Refusal :=
  transact Config.hw (memreadU16 Config.hw dev addr) s

/-- MEMREAD_I32, op 0x14 (R158). -/
def execMemreadI32 (dev : Byte) (addr : HalfWord) (s : State) : Host.Outcome State Fault Refusal :=
  transact Config.hw (memreadI32 Config.hw dev addr) s

/-- MEMREAD_U32, op 0x15 (R159). -/
def execMemreadU32 (dev : Byte) (addr : HalfWord) (s : State) : Host.Outcome State Fault Refusal :=
  transact Config.hw (memreadU32 Config.hw dev addr) s

/-- MEMWRITE, op 0x18 (R165). -/
def execMemwrite (dev : Byte) (addr : HalfWord) (data : List Byte) (wopt : Byte) (s : State) :
    Host.Outcome State Fault Refusal :=
  transact Config.hw (memwrite Config.hw dev addr data wopt) s

/-- MEMWRITE_U8, op 0x19 (R169). -/
def execMemwriteU8 (dev : Byte) (addr : HalfWord) (scalar : Word) (wopt : Byte) (s : State) :
    Host.Outcome State Fault Refusal :=
  transact Config.hw (memwriteU8 Config.hw dev addr scalar wopt) s

/-- MEMWRITE_I16, op 0x1A (R170). -/
def execMemwriteI16 (dev : Byte) (addr : HalfWord) (scalar : Word) (wopt : Byte) (s : State) :
    Host.Outcome State Fault Refusal :=
  transact Config.hw (memwriteI16 Config.hw dev addr scalar wopt) s

/-- MEMWRITE_U16, op 0x1B (R171). -/
def execMemwriteU16 (dev : Byte) (addr : HalfWord) (scalar : Word) (wopt : Byte) (s : State) :
    Host.Outcome State Fault Refusal :=
  transact Config.hw (memwriteU16 Config.hw dev addr scalar wopt) s

/-- MEMWRITE_I32, op 0x1C (R172). -/
def execMemwriteI32 (dev : Byte) (addr : HalfWord) (scalar : Word) (wopt : Byte) (s : State) :
    Host.Outcome State Fault Refusal :=
  transact Config.hw (memwriteI32 Config.hw dev addr scalar wopt) s

/-- MEMWRITE_U32, op 0x1D (R173). -/
def execMemwriteU32 (dev : Byte) (addr : HalfWord) (scalar : Word) (wopt : Byte) (s : State) :
    Host.Outcome State Fault Refusal :=
  transact Config.hw (memwriteU32 Config.hw dev addr scalar wopt) s

end Sys2Proof.Machine
end

