-- ==== Sys2Proof/Machine/Motion.lean ====
section
/-! DEFINITION. Motion commands: FIELDCOUNT, MOTORREAD and the MOTORWRITE forms (42_motion.md). -/

namespace Sys2Proof.Machine

/-- The sentinel outputs of a read-back (R194, R278). -/
def motionSentinel : Outputs := { sample := some sentinelSample, tswState := some SENT8 }

/-- The size a read-back response must have: 8, the torque-switch byte and the fields (R196). -/
def expectedReadBack (mask : Byte) : Nat := MINFRAME + 1 + fieldCount mask

/-- The torque-switch output of a validated frame (R200). -/
def torqueSwitchOf (rx : List Byte) : Byte := if MINFRAME + 1 ≤ rx.length then byteOf rx NFIX else SENT8

/-- `MotionFinish` (R194). -/
def motionFinish (c : Config) (ecmd mask cmode : Byte) (ok : Bool) (rx : List Byte) : Response :=
  afterRoundTrip c ecmd motionSentinel ok rx fun st =>
    if rx.length ≠ expectedReadBack mask then
      decodeFailed c st { sample := some sentinelSample, tswState := some (torqueSwitchOf rx) }
    else
      success st
        { sample := some (decodeSample c.posCtrlMask mask cmode rx), tswState := some (torqueSwitchOf rx) }

/-- MOTORREAD (R195). -/
def motorread (c : Config) (dev mask cmode : Byte) : Transaction :=
  { argsOk := true
    failClass := .timeout
    sentinel := motionSentinel
    tx := frame c dev (c.command .motorRead) mask []
    shape := .var
    m := 0
    check := motionFinish c (c.command .motorRead) mask cmode }

/-- What the MOTORWRITE forms share (R203, R206): the fixed 8-byte response where no read-back is asked for, and the
variable-length read-back otherwise. -/
def motorwrite (c : Config) (argsOk : Bool) (tx : List Byte) (mask cmode : Byte) : Transaction :=
  { argsOk := argsOk
    failClass := .timeout
    sentinel := if mask = NORETURN then {} else motionSentinel
    tx := tx
    shape := if mask = NORETURN then .fixed else .var
    m := MINFRAME
    check := if mask = NORETURN then acknowledged c (c.command .motorWrite)
      else motionFinish c (c.command .motorWrite) mask cmode }

/-- MOTORWRITE_SW (R203). -/
def motorwriteSw (c : Config) (dev tsw mask cmode : Byte) : Transaction :=
  motorwrite c (decide (tsw ∈ TSW_SET)) (frame c dev (c.command .motorWrite) tsw []) mask cmode

/-- MOTORWRITE_T (R206): the first n targets, each as `le16` (R207). -/
def motorwriteT (c : Config) (dev n : Byte) (t0 t1 t2 : HalfWord) (mask cmode : Byte) : Transaction :=
  motorwrite c (decide (1 ≤ n.toNat ∧ n.toNat ≤ MAXTARGETS))
    (frame c dev (c.command .motorWrite) mask (([t0, t1, t2].take n.toNat).flatMap le16)) mask cmode

/-- MOTORWRITE_T1 (R208). -/
def motorwriteT1 (c : Config) (dev : Byte) (t0 : HalfWord) (mask cmode : Byte) : Transaction :=
  motorwriteT c dev 1 t0 0 0 mask cmode

/-- MOTORWRITE_T2 (R209). -/
def motorwriteT2 (c : Config) (dev : Byte) (t0 t1 : HalfWord) (mask cmode : Byte) : Transaction :=
  motorwriteT c dev 2 t0 t1 0 mask cmode

/-- MOTORWRITE_T3 (R210). -/
def motorwriteT3 (c : Config) (dev : Byte) (t0 t1 t2 : HalfWord) (mask cmode : Byte) : Transaction :=
  motorwriteT c dev 3 t0 t1 t2 mask cmode

/-- FIELDCOUNT, op 0x03 (R191). -/
def execFieldcount (mask : Byte) (s : State) : Host.Outcome State Fault Refusal :=
  finish (success 0 { count := some (BitVec.ofNat 8 (fieldCount mask)) }) s

/-- MOTORREAD, op 0x20 (R195). -/
def execMotorread (dev mask cmode : Byte) (s : State) : Host.Outcome State Fault Refusal :=
  transact Config.hw (motorread Config.hw dev mask cmode) s

/-- MOTORWRITE_SW, op 0x21 (R203). -/
def execMotorwriteSw (dev tsw mask cmode : Byte) (s : State) : Host.Outcome State Fault Refusal :=
  transact Config.hw (motorwriteSw Config.hw dev tsw mask cmode) s

/-- MOTORWRITE_T, op 0x22 (R206). -/
def execMotorwriteT (dev n : Byte) (t0 t1 t2 : HalfWord) (mask cmode : Byte) (s : State) :
    Host.Outcome State Fault Refusal :=
  transact Config.hw (motorwriteT Config.hw dev n t0 t1 t2 mask cmode) s

/-- MOTORWRITE_T1, op 0x23 (R208). -/
def execMotorwriteT1 (dev : Byte) (t0 : HalfWord) (mask cmode : Byte) (s : State) :
    Host.Outcome State Fault Refusal :=
  transact Config.hw (motorwriteT1 Config.hw dev t0 mask cmode) s

/-- MOTORWRITE_T2, op 0x24 (R209). -/
def execMotorwriteT2 (dev : Byte) (t0 t1 : HalfWord) (mask cmode : Byte) (s : State) :
    Host.Outcome State Fault Refusal :=
  transact Config.hw (motorwriteT2 Config.hw dev t0 t1 mask cmode) s

/-- MOTORWRITE_T3, op 0x25 (R210). -/
def execMotorwriteT3 (dev : Byte) (t0 t1 t2 : HalfWord) (mask cmode : Byte) (s : State) :
    Host.Outcome State Fault Refusal :=
  transact Config.hw (motorwriteT3 Config.hw dev t0 t1 t2 mask cmode) s

end Sys2Proof.Machine
end

