-- ==== Sys2Proof/Machine/Transfer.lean ====
section
/-! DEFINITION. The raw transfer operations XFER_FIXED, XFER_VAR and XFER_SEND (43_transport.md section 3). -/

namespace Sys2Proof.Machine

/-- The transmit lengths the raw transfers accept, 1 to 256 bytes (R245, D40). -/
def xferArgsOk (data : List Byte) : Bool := decide (1 ≤ data.length ∧ data.length ≤ BUFSIZE)

/-- The outputs of XFER_FIXED and XFER_VAR (R245, R246). -/
def xferOutputs (ok : Bool) (rx : List Byte) : Outputs :=
  { ok := some ok, data := some rx, rxLen := some (BitVec.ofNat 9 rx.length) }

/-- What follows a raw round trip: no validation, the bytes as they came (R245, R246). -/
def xferCheck (c : Config) (ok : Bool) (rx : List Byte) : Response :=
  if ok then success 0 (xferOutputs ok rx) else raised c .timeout (xferOutputs ok rx)

/-- XFER_FIXED (R245). -/
def xferFixed (c : Config) (data : List Byte) (rxlen : Byte) : Transaction :=
  { argsOk := xferArgsOk data
    failClass := .timeout
    sentinel := xferOutputs false []
    tx := data
    shape := .fixed
    m := rxlen.toNat
    check := xferCheck c }

/-- XFER_VAR (R246). -/
def xferVar (c : Config) (data : List Byte) : Transaction :=
  { argsOk := xferArgsOk data
    failClass := .timeout
    sentinel := xferOutputs false []
    tx := data
    shape := .var
    m := 0
    check := xferCheck c }

/-- XFER_SEND (R247): the one operation that reports `E_SEND`. -/
def xferSend (c : Config) (data : List Byte) : Transaction :=
  { argsOk := xferArgsOk data
    failClass := .send
    sentinel := { ok := some false }
    tx := data
    shape := .sendOnly
    m := 0
    check := fun ok _ => if ok then success 0 { ok := some true } else raised c .send { ok := some false } }

/-- XFER_FIXED, op 0x30 (R245). -/
def execXferFixed (data : List Byte) (rxlen : Byte) (s : State) : Host.Outcome State Fault Refusal :=
  transact Config.hw (xferFixed Config.hw data rxlen) s

/-- XFER_VAR, op 0x31 (R246). -/
def execXferVar (data : List Byte) (s : State) : Host.Outcome State Fault Refusal :=
  transact Config.hw (xferVar Config.hw data) s

/-- XFER_SEND, op 0x32 (R247). -/
def execXferSend (data : List Byte) (s : State) : Host.Outcome State Fault Refusal :=
  transact Config.hw (xferSend Config.hw data) s

end Sys2Proof.Machine
end

