-- ==== Sys2Proof/Machine/Dispatch.lean ====
section
/-! DEFINITION. One arm per constructor of Instr, each one call of that instruction's meaning. -/

namespace Sys2Proof.Machine

def exec (i : Instr) (s : State) : Host.Outcome State Fault Refusal :=
  match i with
  | .encode dev cmd opt data => Sys2Proof.Machine.execEncode dev cmd opt data s
  | .validate data cmd hdr => Sys2Proof.Machine.execValidate data cmd hdr s
  | .fieldcount mask => Sys2Proof.Machine.execFieldcount mask s
  | .memread dev addr size => Sys2Proof.Machine.execMemread dev addr size s
  | .memreadU8 dev addr => Sys2Proof.Machine.execMemreadU8 dev addr s
  | .memreadI16 dev addr => Sys2Proof.Machine.execMemreadI16 dev addr s
  | .memreadU16 dev addr => Sys2Proof.Machine.execMemreadU16 dev addr s
  | .memreadI32 dev addr => Sys2Proof.Machine.execMemreadI32 dev addr s
  | .memreadU32 dev addr => Sys2Proof.Machine.execMemreadU32 dev addr s
  | .memwrite dev addr data wopt => Sys2Proof.Machine.execMemwrite dev addr data wopt s
  | .memwriteU8 dev addr scalar wopt => Sys2Proof.Machine.execMemwriteU8 dev addr scalar wopt s
  | .memwriteI16 dev addr scalar wopt => Sys2Proof.Machine.execMemwriteI16 dev addr scalar wopt s
  | .memwriteU16 dev addr scalar wopt => Sys2Proof.Machine.execMemwriteU16 dev addr scalar wopt s
  | .memwriteI32 dev addr scalar wopt => Sys2Proof.Machine.execMemwriteI32 dev addr scalar wopt s
  | .memwriteU32 dev addr scalar wopt => Sys2Proof.Machine.execMemwriteU32 dev addr scalar wopt s
  | .motorread dev mask cmode => Sys2Proof.Machine.execMotorread dev mask cmode s
  | .motorwriteSw dev tsw mask cmode => Sys2Proof.Machine.execMotorwriteSw dev tsw mask cmode s
  | .motorwriteT dev n t0 t1 t2 mask cmode => Sys2Proof.Machine.execMotorwriteT dev n t0 t1 t2 mask cmode s
  | .motorwriteT1 dev t0 mask cmode => Sys2Proof.Machine.execMotorwriteT1 dev t0 mask cmode s
  | .motorwriteT2 dev t0 t1 mask cmode => Sys2Proof.Machine.execMotorwriteT2 dev t0 t1 mask cmode s
  | .motorwriteT3 dev t0 t1 t2 mask cmode => Sys2Proof.Machine.execMotorwriteT3 dev t0 t1 t2 mask cmode s
  | .xferFixed data rxlen => Sys2Proof.Machine.execXferFixed data rxlen s
  | .xferVar data => Sys2Proof.Machine.execXferVar data s
  | .xferSend data => Sys2Proof.Machine.execXferSend data s

end Sys2Proof.Machine
end

