-- ==== Sys2Proof/Machine/Transport.lean ====
section
/-! DEFINITION. The line agent's steps of the transport state machine (43_transport.md rules R232 to R244). A move that is
not enabled in the current state changes no state (R243 for a byte; the others are no step of the line there). -/

namespace Sys2Proof.Machine

/-- `complete(ok, L)` (R244). -/
def complete (ok : Bool) (len : Nat) (s : State) : State :=
  { s with block := { s.block with tres := { ok := ok, rxLen := len }, tstate := .idle, seq := .check } }

/-- The line takes TXBUF[0..TXLEN) (R232) and the state machine goes on as R237 says. -/
def afterSend (ok : Bool) (s : State) : State :=
  if ok then
    match s.block.tshape with
    | .sendOnly => complete true 0 s
    | .fixed => if s.block.rxtgt = 0 then complete true 0 s else { s with block := { s.block with tstate := .rxFix } }
    | .var => { s with block := { s.block with tstate := .rxPre } }
  else complete false 0 s

/-- `TxDone(ok)` (R232, R237), enabled in T_SEND. -/
def txDone (ok : Bool) (s : State) : Host.Outcome State Fault Refusal :=
  match s.block.tstate with
  | .send =>
    orFault (memRead s.block.txbuf s.block.txlen 0 s.block.txlen) fun tx =>
      .next (afterSend ok { s with line := s.line ++ [{ bytes := tx, how := if ok then .completed else .failed }] })
  | .idle => .next s
  | .rxFix => .next s
  | .rxPre => .next s
  | .rxRest => .next s

/-- R241: the prefix is in, and byte 3 declares the total length. -/
def declaredLength (s : State) : Host.Outcome State Fault Refusal :=
  orFault (memRead s.block.rxbuf s.block.rxcnt 3 1) fun d =>
    let n := (byteOf d 0).toNat
    if n < MINFRAME then .next (complete false VAR_PREFIX s)
    else .next { s with block := { s.block with rxtgt := n, tstate := .rxRest } }

/-- What a receive state does once a byte has been stored (R239, R241). -/
def afterByte (s : State) : Host.Outcome State Fault Refusal :=
  match s.block.tstate with
  | .rxFix => if s.block.rxcnt = s.block.rxtgt then .next (complete true s.block.rxcnt s) else .next s
  | .rxPre => if s.block.rxcnt = VAR_PREFIX then declaredLength s else .next s
  | .rxRest => if s.block.rxcnt = s.block.rxtgt then .next (complete true s.block.rxtgt s) else .next s
  | .idle => .next s
  | .send => .next s

/-- Whether the block is in a receive that still waits for a byte (R233, R234). -/
def receiving (b : Block) : Bool :=
  match b.tstate with
  | .rxFix => decide (b.rxcnt < b.rxtgt)
  | .rxPre => decide (b.rxcnt < b.rxtgt)
  | .rxRest => decide (b.rxcnt < b.rxtgt)
  | .idle => false
  | .send => false

/-- `RxByte(b)` (R233); a byte outside a receive is dropped (R243). -/
def rxByte (b : Byte) (s : State) : Host.Outcome State Fault Refusal :=
  if receiving s.block then
    orFault (memWrite s.block.rxbuf s.block.rxcnt [b]) fun buf =>
      afterByte { s with block := { s.block with rxbuf := buf, rxcnt := s.block.rxcnt + 1 } }
  else .next s

/-- `RxTimeout` (R234), with its effect in each receive state (R239, R241). -/
def rxTimeout (s : State) : Host.Outcome State Fault Refusal :=
  if receiving s.block then
    match s.block.tstate with
    | .rxFix => .next (complete false s.block.rxcnt s)
    | .rxPre => .next (complete false 0 s)
    | .rxRest => .next (complete false VAR_PREFIX s)
    | .idle => .next s
    | .send => .next s
  else .next s

/-- A step of the line agent. -/
def lineStep (move : LineMove) (s : State) : Host.Outcome State Fault Refusal :=
  match move with
  | .txDone ok => txDone ok s
  | .rxByte b => rxByte b s
  | .rxTimeout => rxTimeout s

/-- The move the line takes by its oracle (R66), where one is enabled (R235). -/
def oracleMove (b : Block) (k : Nat) : Option LineMove :=
  match b.tstate with
  | .send => some (.txDone (Config.sendCompletes k))
  | .idle => none
  | .rxFix => if receiving b then some (if Config.timeoutFires k then .rxTimeout else .rxByte (Config.lineByte k)) else none
  | .rxPre => if receiving b then some (if Config.timeoutFires k then .rxTimeout else .rxByte (Config.lineByte k)) else none
  | .rxRest => if receiving b then some (if Config.timeoutFires k then .rxTimeout else .rxByte (Config.lineByte k)) else none

/-- A reset in any state (R303): the block as R301 says, nothing at the host port, no response for the operation in
progress, and, where a frame was being sent, the first `sent` of its bytes on the line. -/
def resetStep (sent : Nat) (s : State) : Host.Outcome State Fault Refusal :=
  match s.block.tstate with
  | .send =>
    orFault (memRead s.block.txbuf s.block.txlen 0 (min sent s.block.txlen)) fun tx =>
      .next { s with block := Block.reset, port := .quiet, line := s.line ++ [{ bytes := tx, how := .cut }] }
  | .idle => .next { s with block := Block.reset, port := .quiet }
  | .rxFix => .next { s with block := Block.reset, port := .quiet }
  | .rxPre => .next { s with block := Block.reset, port := .quiet }
  | .rxRest => .next { s with block := Block.reset, port := .quiet }

end Sys2Proof.Machine
end

