-- ==== Sys2Proof/Machine/Schedule.lean ====
section
/-! DEFINITION. Which agent moves and what its move does: a requester presents (43_transport.md rules R248, R253), the line
moves, the sequencer takes its CHECK step (R244), the block is reset (R303). -/

namespace Sys2Proof.Machine

/-- Whether requester `r` waits for a response (R248): its operation is the one in CUR. -/
def outstanding (b : Block) (r : Nat) : Bool :=
  match b.cur with
  | none => false
  | some cur => decide (cur.requester = r)

/-- Whether requester `r` of `nreq` may take the step `Present(req)`: it exists (R17), it has no operation outstanding
(R248, R253), and the request record can carry the request (R23). -/
def mayPresent (nreq r : Nat) (req : Request) (b : Block) : Bool :=
  decide (r < nreq) && !outstanding b r && req.wf

/-- A decoded request's meaning, or a reserved code's answer (R122). -/
def runRequest (req : Request) (s : State) : Host.Outcome State Fault Refusal :=
  match decode req with
  | .ok i => exec i s
  | .error _ => execReserved s

/-- `Present(req)` by requester `r` (R248), one atomic step; where it may not present there is no such step (R253). -/
def present (r : Nat) (req : Request) (s : State) : Host.Outcome State Fault Refusal :=
  if mayPresent Config.hw.nreq r req s.block then runRequest req { s with port := .request r req } else .next s

/-- The sequencer's CHECK step (R244): the rest of the operation in CUR. -/
def resumeOperation (s : State) : Host.Outcome State Fault Refusal :=
  match s.block.cur with
  | none => .fault .noRequest
  | some cur => runRequest cur.req { s with port := .resume cur.requester }

/-- The sequencer's turn: a CHECK step where one is due, and otherwise nothing. -/
def sequencerStep (s : State) : Host.Outcome State Fault Refusal :=
  match s.block.seq with
  | .check => resumeOperation s
  | .idle => .next s
  | .build => .next s
  | .xfer => .next s

/-- One move of the outside. -/
def react (input : Input) (s : State) : Host.Outcome State Fault Refusal :=
  match input with
  | .present r req => present r req s
  | .line move => lineStep move s
  | .sequencer => sequencerStep s
  | .reset sent => resetStep sent s

/-- No move of the outside is listed: the sequencer checks what is due, or the line takes the move its oracle gives
(fairness, R235), or the block waits for `Present` (R302). -/
def unattended (s : State) : Host.Outcome State Fault Refusal :=
  match oracleMove s.block s.draws with
  | some move => lineStep move { s with draws := s.draws + 1 }
  | none => sequencerStep s

/-- One step of the machine: the next move of the outside, or, with none listed, the machine's own. -/
def advance (s : State) : Host.Outcome State Fault Refusal :=
  match s.inputs with
  | [] => unattended s
  | input :: rest => react input { s with inputs := rest }

/-- A requester with no operation outstanding, of the first two. -/
def freeRequester (b : Block) : Nat := if outstanding b 0 then 1 else 0

end Sys2Proof.Machine
end

