-- ==== Sys2Proof/Machine/Step.lean ====
section
/-! DEFINITION. The step of the machine, and where its next instruction comes from: the block has no program counter
(10_state.md rule R24), it is given operations one by one at the host port (43_transport.md rule R248). -/

namespace Sys2Proof.Machine

/-- One step. -/
def step (s : State) : Host.Outcome State Fault Refusal := advance s

/-- `s` with the request of an opcode-table word presented next, by a requester with no operation outstanding. -/
def State.withFetchWord (s : State) (nbits w : Nat) : State :=
  { s with inputs := .present (freeRequester s.block) (Request.ofTableWord nbits w) :: s.inputs }

end Sys2Proof.Machine
end

