-- ==== Sys2Proof/Safety.lean ====
section
/-! DEFINITION. What a safe state is: the relations between the block's fields that every step keeps, in the terms the
claims use. In such a state no step stops (10_state.md rule R29: "No rule of this spec reads an invalid byte"). -/

namespace Sys2Proof.Machine

/-- The transport operation an instruction is, if it is one (R25: ENCODE, VALIDATE and FIELDCOUNT are none). -/
def transactionOf (c : Config) : Instr → Option Transaction
  | .encode _ _ _ _ => none
  | .validate _ _ _ => none
  | .fieldcount _ => none
  | .memread dev addr size => some (memread c dev addr size)
  | .memreadU8 dev addr => some (memreadU8 c dev addr)
  | .memreadI16 dev addr => some (memreadI16 c dev addr)
  | .memreadU16 dev addr => some (memreadU16 c dev addr)
  | .memreadI32 dev addr => some (memreadI32 c dev addr)
  | .memreadU32 dev addr => some (memreadU32 c dev addr)
  | .memwrite dev addr data wopt => some (memwrite c dev addr data wopt)
  | .memwriteU8 dev addr scalar wopt => some (memwriteU8 c dev addr scalar wopt)
  | .memwriteI16 dev addr scalar wopt => some (memwriteI16 c dev addr scalar wopt)
  | .memwriteU16 dev addr scalar wopt => some (memwriteU16 c dev addr scalar wopt)
  | .memwriteI32 dev addr scalar wopt => some (memwriteI32 c dev addr scalar wopt)
  | .memwriteU32 dev addr scalar wopt => some (memwriteU32 c dev addr scalar wopt)
  | .motorread dev mask cmode => some (motorread c dev mask cmode)
  | .motorwriteSw dev tsw mask cmode => some (motorwriteSw c dev tsw mask cmode)
  | .motorwriteT dev n t0 t1 t2 mask cmode => some (motorwriteT c dev n t0 t1 t2 mask cmode)
  | .motorwriteT1 dev t0 mask cmode => some (motorwriteT1 c dev t0 mask cmode)
  | .motorwriteT2 dev t0 t1 mask cmode => some (motorwriteT2 c dev t0 t1 mask cmode)
  | .motorwriteT3 dev t0 t1 t2 mask cmode => some (motorwriteT3 c dev t0 t1 t2 mask cmode)
  | .xferFixed data rxlen => some (xferFixed c data rxlen)
  | .xferVar data => some (xferVar c data)
  | .xferSend data => some (xferSend c data)

/-- The first `n` bytes of a buffer hold values. -/
def Filled (m : Memory) (n : Nat) : Prop := ∀ a, a < n → (m.byteAt? a).isSome = true

/-- The first bytes of a buffer are `xs`. -/
def Holds (m : Memory) (xs : List Byte) : Prop := ∀ a, a < xs.length → m.byteAt? a = xs[a]?

/-- How long the result of a successful transfer is (R238, R240, R242): what was asked for, or what byte 3 declared. -/
def ResultFits (op : Transaction) (b : Block) (n : Nat) : Prop :=
  match op.shape with
  | .fixed => n = op.m
  | .var => MINFRAME ≤ n ∧ b.rxbuf.byteAt? 3 = some (BitVec.ofNat 8 n)
  | .sendOnly => n = 0

/-- Where the operation in progress stands in its transfer (R236 to R241, R244). -/
def Phase (op : Transaction) (b : Block) : Prop :=
  match b.tstate with
  | .send =>
    b.rxcnt = 0 ∧ b.rxtgt = firstTarget op.shape op.m
  | .rxFix => op.shape = .fixed ∧ b.rxtgt = op.m ∧ b.rxcnt < b.rxtgt
  | .rxPre => op.shape = .var ∧ b.rxtgt = VAR_PREFIX ∧ b.rxcnt < b.rxtgt
  | .rxRest =>
    op.shape = .var ∧ MINFRAME ≤ b.rxtgt ∧ VAR_PREFIX ≤ b.rxcnt ∧ b.rxcnt < b.rxtgt ∧
      b.rxbuf.byteAt? 3 = some (BitVec.ofNat 8 b.rxtgt)
  | .idle =>
    b.tres.rxLen ≤ b.rxcnt ∧ (b.tres.ok = true → ResultFits op b b.tres.rxLen)

/-- The operation in CUR: a request that a requester may present, for a transport operation whose arguments passed, with
its own frame in TXBUF. -/
def Carries (cur : Current) (b : Block) : Prop :=
  cur.requester < Config.hw.nreq ∧ cur.req.wf = true ∧
    ∃ i op, decode cur.req = .ok i ∧ transactionOf Config.hw i = some op ∧ op.argsOk = true ∧
      b.txlen = op.tx.length ∧ Holds b.txbuf op.tx ∧ b.tshape = op.shape ∧ Phase op b

/-- The block's invariant. -/
structure Block.Sound (b : Block) : Prop where
  tx_canonical : b.txbuf.wf = true
  rx_canonical : b.rxbuf.wf = true
  /-- R27: TXLEN is 0..256. -/
  txlen_le : b.txlen ≤ BUFSIZE
  rxcnt_le : b.rxcnt ≤ b.rxtgt
  /-- No receive is longer than the longest frame. -/
  rxtgt_le : b.rxtgt ≤ MAXFRAME
  tres_le : b.tres.rxLen ≤ MAXFRAME
  /-- R29: the valid bytes of the buffers hold values. -/
  tx_filled : Filled b.txbuf b.txlen
  rx_filled : Filled b.rxbuf b.rxcnt
  /-- R25: BUSY from acceptance to `finish`. -/
  busy_iff : b.busy = true ↔ b.seq ≠ .idle
  /-- R24: BUILD begins and ends inside one step. -/
  not_build : b.seq ≠ .build
  /-- R24: in XFER the transport state machine owns the operation. -/
  xfer_iff : b.seq = .xfer ↔ b.tstate ≠ .idle
  cur_iff : b.cur = none ↔ b.busy = false
  carries : ∀ cur, b.cur = some cur → Carries cur b

/-- A sound state of the machine. -/
def State.Sound (s : State) : Prop := s.block.Sound

end Sys2Proof.Machine
end

