-- ==== Sys2Proof/Certificates/Slice0/Obligations.lean ====
section
/-! DEFINITION. The statements for the provers, one a rule (or a few rules of one shape) of the spec, in the terms of the
rules: bytes of frames written out, statuses composed, the whole next state given. -/

namespace Sys2Proof.Claims

open Sys2Proof Sys2Proof.Machine

/-- The block's configuration. A statement about the machine holds for every configuration the spec allows. -/
abbrev hw : Config := Config.hw

/-- The operation answers at once and changes nothing but the responses delivered (R13 `finish` of an operation that does
not hold the transport). -/
def AnswersOnly (i : Instr) (s : State) (r : Nat) (resp : Response) : Prop :=
  exec i s = .next { s with outbox := s.outbox ++ [{ requester := r, resp := resp }] }

/-- The operation takes the transport and starts its transfer, and nothing else changes (R249, R236): `tx` stands in TXBUF,
every other offset of TXBUF reads as before, nothing is delivered, nothing is on the line yet. -/
def Starts (i : Instr) (s : State) (r : Nat) (req : Request) (shape : TShape) (tx : List Byte) (target : Nat) : Prop :=
  ∃ buf : Memory,
    exec i s = .next { s with
      block := { s.block with
        busy := true, cur := some { requester := r, req := req }, seq := .xfer, tstate := .send, tshape := shape,
        txbuf := buf, txlen := tx.length, rxcnt := 0, rxtgt := target } } ∧
    ∀ a, buf.byteAt? a = if a < tx.length then tx[a]? else s.block.txbuf.byteAt? a

/-- A CHECK step is due to requester `r`'s operation, with the transfer's result `(ok, rx)` (R244). -/
def Received (s : State) (r : Nat) (ok : Bool) (rx : List Byte) : Prop :=
  s.port = .resume r ∧ s.block.tres = { ok := ok, rxLen := rx.length } ∧ rx.length ≤ s.block.rxcnt ∧
    Holds s.block.rxbuf rx

/-- The operation finishes at its CHECK step (R13): the response is delivered, the transport is given up, nothing else
changes. -/
def Ends (i : Instr) (s : State) (r : Nat) (resp : Response) : Prop :=
  exec i s = .next { s with
    block := { s.block with busy := false, tstate := .idle, seq := .idle, cur := none }
    outbox := s.outbox ++ [{ requester := r, resp := resp }] }

/-- A transport operation's whole rule: the argument check before anything else, the busy guard, the request that is sent
and the receive it starts, and the answer to what the transfer received. -/
def FollowsRule (i : Instr) (argsOk : Prop) (failClass : ErrorClass) (sentinel : Outputs) (shape : TShape)
    (tx : List Byte) (target : Nat) (answer : Bool → List Byte → Response) : Prop :=
  ∀ (s : State) (r : Nat),
    (∀ req, s.port = .request r req → ¬ argsOk →
      AnswersOnly i s r { status := composite (hw.errorCode .format) 0, outs := sentinel }) ∧
    (∀ req, s.port = .request r req → argsOk → s.block.busy = true →
      AnswersOnly i s r { status := composite (hw.errorCode failClass) 0, outs := sentinel }) ∧
    (∀ req, s.port = .request r req → argsOk → s.block.busy = false → Starts i s r req shape tx target) ∧
    (∀ ok rx, Received s r ok rx → Ends i s r (answer ok rx))

/-- A frame (R91): the six fixed bytes and the payload `h`, then the checksum over all of them, low byte first (R96). -/
def withChecksum (h : List Byte) : List Byte :=
  h ++ [(hw.crc16 h).extractLsb' 0 8, (hw.crc16 h).extractLsb' 8 8]

/-- The result of a round trip: E_TIMEOUT where the transfer failed, and otherwise what validation says (R151). -/
def roundTrip (cmd : Command) (ok : Bool) (rx : List Byte) : Except ErrorClass Byte :=
  if ok then validate hw rx (hw.command cmd) 0xFE else .error .timeout

/-- The answer to a round trip: the sentinels on an error, low byte 0 (R274, R278), and `good` of the status byte
otherwise. -/
def answerOf (cmd : Command) (sentinel : Outputs) (good : Byte → List Byte → Response) (ok : Bool) (rx : List Byte) :
    Response :=
  match roundTrip cmd ok rx with
  | .error e => { status := composite (hw.errorCode e) 0, outs := sentinel }
  | .ok st => good st rx

/-- A typed read's rule (R153 to R159): the MEMREAD request of the given size, and the value decoded from the payload. -/
def TypedReadRule (i : Instr) (dev : Byte) (addr : HalfWord) (size : Byte) (sentinel : Word)
    (value : List Byte → Word) : Prop :=
  FollowsRule i True .timeout { value := some sentinel } .fixed
    (withChecksum [0xFE, 0xFE, dev, 0x0B, hw.command .memRead, 0x00, addr.extractLsb' 0 8, addr.extractLsb' 8 8, size])
    (8 + size.toNat)
    (answerOf .memRead { value := some sentinel } fun st rx =>
      { status := composite 0 st, outs := { value := some (value rx) } })

/-- A register write's rule (R165): the request `[FE FE dev len CMD_MEM_WRITE wopt addrLo addrHi data… c0 c1]`, an 8-byte
response, and the device status. -/
def WriteRule (i : Instr) (argsOk : Prop) (dev : Byte) (addr : HalfWord) (data : List Byte) (wopt : Byte) : Prop :=
  FollowsRule i argsOk .timeout {} .fixed
    (withChecksum ([0xFE, 0xFE, dev, BitVec.ofNat 8 (10 + data.length), hw.command .memWrite, wopt,
      addr.extractLsb' 0 8, addr.extractLsb' 8 8] ++ data))
    8
    (answerOf .memWrite {} fun st _ => { status := composite 0 st, outs := {} })

/-- Every slot 32767 (R199). -/
def allSentinel : Sample :=
  { position := 0x7FFF, speed := 0x7FFF, current := 0x7FFF, torque := 0x7FFF, pwm := 0x7FFF, motorTemp := 0x7FFF,
    cpuTemp := 0x7FFF, voltage := 0x7FFF }

/-- The outputs of a read-back that failed (R278). -/
def readBackSentinel : Outputs := { sample := some allSentinel, tswState := some 0xFF }

/-- How many of the mask's eight bits are set (R11). -/
def setBits (mask : Byte) : Nat := ((List.range 8).filter fun k => mask.getLsbD k).length

/-- The answer to a validated read-back (R194, R196, R197, R200). -/
def readBack (mask cmode : Byte) (st : Byte) (rx : List Byte) : Response :=
  let tsw : Byte := if 9 ≤ rx.length then byteOf rx 6 else 0xFF
  if rx.length = 9 + 2 * setBits mask then
    { status := composite 0 st
      outs := { sample := some (decodeSample hw.posCtrlMask mask cmode rx), tswState := some tsw } }
  else
    { status := composite (hw.errorCode .mdec) st, outs := { sample := some allSentinel, tswState := some tsw } }

/-- A MOTORWRITE form's rule (R203, R206): mask 0x00 asks for no read-back and takes a fixed 8-byte response, any other
mask a variable-length read-back. -/
def MotorwriteRule (i : Instr) (argsOk : Prop) (mask cmode : Byte) (tx : List Byte) : Prop :=
  if mask = 0x00 then
    FollowsRule i argsOk .timeout {} .fixed tx 8
      (answerOf .motorWrite {} fun st _ => { status := composite 0 st, outs := {} })
  else
    FollowsRule i argsOk .timeout readBackSentinel .var tx 4
      (answerOf .motorWrite readBackSentinel (readBack mask cmode))

/-- The outputs of a raw round trip (R245, R246). -/
def rawOutputs (ok : Bool) (rx : List Byte) : Outputs :=
  { ok := some ok, data := some rx, rxLen := some (BitVec.ofNat 9 rx.length) }

/-- The motion operations that ask for a read-back (R195, R203, R206). -/
def ReadsBack (i : Instr) : Prop :=
  ∃ dev mask cmode, i = .motorread dev mask cmode ∨
    (mask ≠ 0x00 ∧
      ((∃ tsw, i = .motorwriteSw dev tsw mask cmode) ∨
        (∃ n t0 t1 t2, i = .motorwriteT dev n t0 t1 t2 mask cmode) ∨
        (∃ t0, i = .motorwriteT1 dev t0 mask cmode) ∨
        (∃ t0 t1, i = .motorwriteT2 dev t0 t1 mask cmode) ∨
        ∃ t0 t1 t2, i = .motorwriteT3 dev t0 t1 t2 mask cmode))

/-- The answer of a raw round trip (R245, R246). -/
def rawAnswer (ok : Bool) (rx : List Byte) : Response :=
  { status := if ok then composite 0 0 else composite (hw.errorCode .timeout) 0, outs := rawOutputs ok rx }

/-- A byte list with bit `k` of byte `j` flipped (R138). -/
def flipBit (xs : List Byte) (j k : Nat) : List Byte := xs.modify j (· ^^^ (1#8 <<< k))

/-- "CRC16 detects every single-bit error in a message" (R138, 93_implementation_defined.md G1). -/
def DetectsSingleBit (c : Config) : Prop :=
  ∀ xs j k, j < xs.length → k < 8 → c.crc16 (flipBit xs j k) ≠ c.crc16 xs

/-- Requester `r` may present `req` (R17, R23, R248). -/
def MayPresent (s : State) (r : Nat) (req : Request) : Prop :=
  r < hw.nreq ∧ (∀ cur, s.block.cur = some cur → cur.requester ≠ r) ∧ req.data.length ≤ 256

/-- The operation codes of R121. -/
def opcodes : List Byte :=
  [0x01, 0x02, 0x03, 0x10, 0x11, 0x12, 0x13, 0x14, 0x15, 0x18, 0x19, 0x1A, 0x1B, 0x1C, 0x1D, 0x20, 0x21, 0x22, 0x23,
    0x24, 0x25, 0x30, 0x31, 0x32]

/-- The block's transfer is complete with `(ok, n)` and its CHECK step is due (R244). -/
def completed (b : Block) (ok : Bool) (n : Nat) : Block :=
  { b with tres := { ok := ok, rxLen := n }, tstate := .idle, seq := .check }

/-- RXBUF with one more byte at RXCNT (R233): a buffer that reads so, and as before elsewhere. -/
def StoresByte (b : Block) (x : Byte) (buf : Memory) : Prop :=
  ∀ a, buf.byteAt? a = if a = b.rxcnt then some x else b.rxbuf.byteAt? a

/-- What of the block a later step can depend on (R18, R29): BUSY, SEQ, TSTATE and CUR, and, while an operation is in
progress, the transfer's shape and counts, the valid bytes of the buffers, and TRES once the transfer has completed. -/
def LiveEq (b b' : Block) : Prop :=
  b.busy = b'.busy ∧ b.seq = b'.seq ∧ b.tstate = b'.tstate ∧ b.cur = b'.cur ∧
    (b.busy = true →
      b.tshape = b'.tshape ∧ b.txlen = b'.txlen ∧ b.rxcnt = b'.rxcnt ∧ b.rxtgt = b'.rxtgt ∧
      (∀ a, a < b.txlen → b.txbuf.byteAt? a = b'.txbuf.byteAt? a) ∧
      (∀ a, a < b.rxcnt → b.rxbuf.byteAt? a = b'.rxbuf.byteAt? a) ∧
      (b.seq = .check → b.tres = b'.tres))

/-- Two states that the outside cannot tell apart. -/
def SameOutside (s s' : State) : Prop :=
  s.inputs = s'.inputs ∧ s.outbox = s'.outbox ∧ s.line = s'.line ∧ s.draws = s'.draws

/-- `n` steps, stopping at the first that stops. -/
def after : Nat → State → Host.Outcome State Fault Refusal
  | 0, s => .next s
  | n + 1, s =>
    match step s with
    | .next t => after n t
    | .fault f => .fault f
    | .refused r => .refused r

/-- The line's moves of one exchange: the send completes and the bytes arrive in order. -/
def exchange (rx : List Byte) : List Input := .line (.txDone true) :: rx.map fun b => .line (.rxByte b)

/-- The classes of a composed status (R274): none, or one class, with the low byte 0 but after a motion decode failure. -/
def ComposedOfOneClass (st : HalfWord) : Prop :=
  errorClassOf st = 0 ∨ ∃ e, errorClassOf st = hw.errorCode e ∧ (e ≠ .mdec → deviceStatusOf st = 0)

end Sys2Proof.Claims

open Sys2Proof Sys2Proof.Machine Sys2Proof.Claims

/-! ### The frame codec -/

/-- R131. -/
def Obligations.EncodeAnswersTheFrame : Prop :=
  ∀ (dev cmd opt : Byte) (data : List Byte) (s : State) (r : Nat) (req : Request), s.port = .request r req →
    (data.length ≤ 247 →
      AnswersOnly (.encode dev cmd opt data) s r
        { status := 0x0000
          outs := { data := some (withChecksum
            ([0xFE, 0xFE, dev, BitVec.ofNat 8 (8 + data.length), cmd, opt] ++ data)) } }) ∧
    (247 < data.length →
      AnswersOnly (.encode dev cmd opt data) s r { status := composite (hw.errorCode .format) 0, outs := {} })

/-- R133 and R139: the first failing check, in the order length, header, command, checksum, is the one reported. -/
def Obligations.ValidateReportsTheFirstFailingCheck : Prop :=
  ∀ (cmd hdr : Byte) (s : State) (r : Nat) (req : Request), s.port = .request r req →
    (∀ f : List Byte, f.length < 8 →
      AnswersOnly (.validate f cmd hdr) s r { status := composite (hw.errorCode .recv) 0, outs := {} }) ∧
    (∀ (h0 h1 id len c st : Byte) (p : List Byte) (lo hi : Byte),
      AnswersOnly (.validate ([h0, h1, id, len, c, st] ++ p ++ [lo, hi]) cmd hdr) s r
        { status :=
            if h0 ≠ hdr ∨ h1 ≠ hdr then composite (hw.errorCode .recv) 0
            else if c &&& 0x7F ≠ cmd then composite (hw.errorCode .recv) 0
            else if hi ++ lo ≠ hw.crc16 ([h0, h1, id, len, c, st] ++ p) then composite (hw.errorCode .crc) 0
            else composite 0 st
          outs := {} })

/-- R137. -/
def Obligations.ValidateUndoesEncode : Prop :=
  ∀ (c : Config) (dev cmd opt : Byte) (p : List Byte), cmd < 0x80 → p.length ≤ 247 →
    validate c (frame c dev cmd opt p) cmd 0xFE = .ok opt ∧
      byteOf (frame c dev cmd opt p) 2 = dev ∧ byteOf (frame c dev cmd opt p) 4 = cmd ∧
      slice (frame c dev cmd opt p) 6 ((frame c dev cmd opt p).length - 8) = p ∧
      (byteOf (frame c dev cmd opt p) 3).toNat = (frame c dev cmd opt p).length

/-- R138, under its assumption on CRC16: a valid frame with one bit flipped never validates, and which class reports it. -/
def Obligations.FlippedBitNeverValidates : Prop :=
  ∀ (c : Config), DetectsSingleBit c →
    ∀ (f : List Byte) (cmd st : Byte), validate c f cmd 0xFE = .ok st →
      ∀ j k, j < f.length → k < 8 →
        validate c (flipBit f j k) cmd 0xFE =
          if j = 0 ∨ j = 1 ∨ (j = 4 ∧ k < 7) then .error .recv else .error .crc

/-- R134, R135: the device id, the declared length and bit 7 of the command byte are not checked, and the checksum is read
from the last two bytes received. -/
def Obligations.ValidateIgnoresIdLengthAndTopBit : Prop :=
  ∀ (c : Config) (id len cmd st : Byte) (p : List Byte),
    validate c ([0xFE, 0xFE, id, len, cmd, st] ++ p ++ le16 (c.crc16 ([0xFE, 0xFE, id, len, cmd, st] ++ p)))
      (cmd &&& 0x7F) 0xFE = .ok st

/-- R30, R276: the status composer. -/
def Obligations.StatusIsClassOverDeviceByte : Prop :=
  ∀ cls dev : Byte,
    composite cls dev = ((cls.setWidth 16 <<< 8) ||| dev.setWidth 16) ∧
      errorClassOf (composite cls dev) = cls ∧ deviceStatusOf (composite cls dev) = dev ∧
      (isError (composite cls dev) = true ↔ cls ≠ 0)

/-! ### Register access -/

/-- R151 (with R101, R152, R175): MEMREAD. -/
def Obligations.MemreadFollowsItsRule : Prop :=
  ∀ (dev : Byte) (addr : HalfWord) (size : Byte),
    FollowsRule (.memread dev addr size) (size.toNat ≠ 0 ∧ size.toNat < 244) .timeout
      { data := some (List.replicate size.toNat 0xFF) } .fixed
      (withChecksum [0xFE, 0xFE, dev, 0x0B, hw.command .memRead, 0x00, addr.extractLsb' 0 8, addr.extractLsb' 8 8, size])
      (8 + size.toNat)
      (answerOf .memRead { data := some (List.replicate size.toNat 0xFF) } fun st rx =>
        { status := composite 0 st, outs := { data := some ((rx.drop 6).take size.toNat) } })

/-- R155 to R159 (with R153, R154): the five typed reads. -/
def Obligations.TypedReadsFollowTheirRules : Prop :=
  ∀ (dev : Byte) (addr : HalfWord),
    TypedReadRule (.memreadU8 dev addr) dev addr 1 0x000000FF (fun rx => (byteOf rx 6).setWidth 32) ∧
    TypedReadRule (.memreadI16 dev addr) dev addr 2 0x00007FFF (fun rx => (byteOf rx 7 ++ byteOf rx 6).setWidth 32) ∧
    TypedReadRule (.memreadU16 dev addr) dev addr 2 0x00007FFF (fun rx => (byteOf rx 7 ++ byteOf rx 6).setWidth 32) ∧
    TypedReadRule (.memreadI32 dev addr) dev addr 4 0x7FFFFFFF
      (fun rx => (byteOf rx 9 ++ byteOf rx 8) ++ (byteOf rx 7 ++ byteOf rx 6)) ∧
    TypedReadRule (.memreadU32 dev addr) dev addr 4 0x7FFFFFFF
      (fun rx => (byteOf rx 9 ++ byteOf rx 8) ++ (byteOf rx 7 ++ byteOf rx 6))

/-- R165 (with R103, R104, R175): MEMWRITE. -/
def Obligations.MemwriteFollowsItsRule : Prop :=
  ∀ (dev : Byte) (addr : HalfWord) (data : List Byte) (wopt : Byte),
    WriteRule (.memwrite dev addr data wopt) (data.length ≠ 0 ∧ data.length < 245) dev addr data wopt

/-- R168 to R173: the five typed writes, each a MEMWRITE of the scalar's low bytes in little-endian order. -/
def Obligations.TypedWritesFollowTheirRules : Prop :=
  ∀ (dev : Byte) (addr : HalfWord) (v : Word) (wopt : Byte),
    WriteRule (.memwriteU8 dev addr v wopt) True dev addr [v.extractLsb' 0 8] wopt ∧
    WriteRule (.memwriteI16 dev addr v wopt) True dev addr [v.extractLsb' 0 8, v.extractLsb' 8 8] wopt ∧
    WriteRule (.memwriteU16 dev addr v wopt) True dev addr [v.extractLsb' 0 8, v.extractLsb' 8 8] wopt ∧
    WriteRule (.memwriteI32 dev addr v wopt) True dev addr
      [v.extractLsb' 0 8, v.extractLsb' 8 8, v.extractLsb' 16 8, v.extractLsb' 24 8] wopt ∧
    WriteRule (.memwriteU32 dev addr v wopt) True dev addr
      [v.extractLsb' 0 8, v.extractLsb' 8 8, v.extractLsb' 16 8, v.extractLsb' 24 8] wopt

/-! ### Motion -/

/-- R191. -/
def Obligations.FieldcountDoublesTheSelectedBits : Prop :=
  ∀ (mask : Byte) (s : State) (r : Nat) (req : Request), s.port = .request r req →
    AnswersOnly (.fieldcount mask) s r
      { status := 0x0000, outs := { count := some (BitVec.ofNat 8 (2 * setBits mask)) } }

/-- R195 with its request (R105) and its answer (R194, R196, R197, R199, R200). -/
def Obligations.MotorreadFollowsItsRule : Prop :=
  ∀ dev mask cmode : Byte,
    FollowsRule (.motorread dev mask cmode) True .timeout readBackSentinel .var
      (withChecksum [0xFE, 0xFE, dev, 0x08, hw.command .motorRead, mask]) 4
      (answerOf .motorRead readBackSentinel (readBack mask cmode))

/-- R203 (with R107, R109). -/
def Obligations.MotorwriteSwitchFollowsItsRule : Prop :=
  ∀ dev tsw mask cmode : Byte,
    MotorwriteRule (.motorwriteSw dev tsw mask cmode) (tsw = 0x01 ∨ tsw = 0x02 ∨ tsw = 0x04 ∨ tsw = 0x08) mask cmode
      (withChecksum [0xFE, 0xFE, dev, 0x08, hw.command .motorWrite, tsw])

/-- R206 (with R108, R207): any number of targets from 0 to 255 asked for. -/
def Obligations.MotorwriteTargetsFollowsItsRule : Prop :=
  ∀ (dev n : Byte) (t0 t1 t2 : HalfWord) (mask cmode : Byte),
    MotorwriteRule (.motorwriteT dev n t0 t1 t2 mask cmode) (1 ≤ n.toNat ∧ n.toNat ≤ 3) mask cmode
      (withChecksum ([0xFE, 0xFE, dev, BitVec.ofNat 8 (8 + 2 * min n.toNat 3), hw.command .motorWrite, mask] ++
        [t0.extractLsb' 0 8, t0.extractLsb' 8 8, t1.extractLsb' 0 8, t1.extractLsb' 8 8, t2.extractLsb' 0 8,
          t2.extractLsb' 8 8].take (2 * n.toNat)))

/-- R208, R209, R210: the one-, two- and three-target forms. -/
def Obligations.TargetEntryPointsFollowTheirRules : Prop :=
  ∀ (dev : Byte) (t0 t1 t2 : HalfWord) (mask cmode : Byte),
    MotorwriteRule (.motorwriteT1 dev t0 mask cmode) True mask cmode
      (withChecksum [0xFE, 0xFE, dev, 0x0A, hw.command .motorWrite, mask, t0.extractLsb' 0 8, t0.extractLsb' 8 8]) ∧
    MotorwriteRule (.motorwriteT2 dev t0 t1 mask cmode) True mask cmode
      (withChecksum [0xFE, 0xFE, dev, 0x0C, hw.command .motorWrite, mask, t0.extractLsb' 0 8, t0.extractLsb' 8 8,
        t1.extractLsb' 0 8, t1.extractLsb' 8 8]) ∧
    MotorwriteRule (.motorwriteT3 dev t0 t1 t2 mask cmode) True mask cmode
      (withChecksum [0xFE, 0xFE, dev, 0x0E, hw.command .motorWrite, mask, t0.extractLsb' 0 8, t0.extractLsb' 8 8,
        t1.extractLsb' 0 8, t1.extractLsb' 8 8, t2.extractLsb' 0 8, t2.extractLsb' 8 8])

/-- R198: position by the position-control bit, voltage unsigned, every other field signed. -/
def Obligations.FieldDecodeExtendsBySignRule : Prop :=
  ∀ (pos cmode : Byte) (raw : HalfWord),
    (decodeField pos .position raw cmode).toInt =
        (if cmode &&& pos ≠ 0 then raw.toInt else (raw.toNat : Int)) ∧
      (decodeField pos .voltage raw cmode).toInt = (raw.toNat : Int) ∧
      ∀ f, f ≠ .position → f ≠ .voltage → (decodeField pos f raw cmode).toInt = raw.toInt

/-- R192, R211, R110: a read-back that lays the selected fields out in canonical order, two bytes each, low byte first, after
the torque-switch byte, decodes slot by slot; the slots not selected hold the sentinel. -/
def Obligations.ReadBackFieldsDecodeInCanonicalOrder : Prop :=
  ∀ (pos mask cmode : Byte) (g : Field → HalfWord) (fixedPart tail : List Byte) (tsw : Byte), fixedPart.length = 6 →
    ∀ f : Field,
      (decodeSample pos mask cmode
          (fixedPart ++ [tsw] ++ ((Field.all.filter (·.selected mask)).flatMap fun x => le16 (g x)) ++ tail)).slot f =
        if mask.getLsbD f.index then decodeField pos f (g f) cmode else 0x7FFF

/-! ### Raw transfers -/

/-- R245. -/
def Obligations.XferFixedFollowsItsRule : Prop :=
  ∀ (data : List Byte) (rxlen : Byte),
    FollowsRule (.xferFixed data rxlen) (data.length ≠ 0 ∧ data.length ≤ 256) .timeout (rawOutputs false []) .fixed data
      rxlen.toNat rawAnswer

/-- R246. -/
def Obligations.XferVarFollowsItsRule : Prop :=
  ∀ data : List Byte,
    FollowsRule (.xferVar data) (data.length ≠ 0 ∧ data.length ≤ 256) .timeout (rawOutputs false []) .var data 4 rawAnswer

/-- R247. -/
def Obligations.XferSendFollowsItsRule : Prop :=
  ∀ data : List Byte,
    FollowsRule (.xferSend data) (data.length ≠ 0 ∧ data.length ≤ 256) .send { ok := some false } .sendOnly data 0
      fun ok _ =>
        { status := if ok then composite 0 0 else composite (hw.errorCode .send) 0, outs := { ok := some ok } }

/-- R247, R273: no operation but XFER_SEND reports E_SEND, and only a motion operation with a read-back reports E_MDEC, after
its transfer. -/
def Obligations.SendAndDecodeErrorsHaveTheirOwnOperations : Prop :=
  ∀ (i : Instr) (s t : State) (d : Delivery), exec i s = .next t → t.outbox = s.outbox ++ [d] →
    (errorClassOf d.resp.status = hw.errorCode .send → ∃ data, i = .xferSend data) ∧
    (errorClassOf d.resp.status = hw.errorCode .mdec → ReadsBack i ∧ ∃ r, s.port = .resume r)

/-! ### The host port -/

/-- R121, R122, R120: every instruction survives the round trip through its request, and the requests that decode are exactly
those whose op byte stands in the table. -/
def Obligations.DecodeUndoesEncode : Prop :=
  (∀ i : Instr, decode (encode i) = .ok i ∧ (encode i).wf = i.wf ∧ (encode i).op ∈ opcodes) ∧
    (∀ (q : Request) (i : Instr), decode q = .ok i → (encode i).op = q.op ∧ (q.wf = true → i.wf = true)) ∧
    ∀ q : Request, (∃ i, decode q = .ok i) ↔ q.op ∈ opcodes

/-- Words written out from R121 decode to the operations they stand for. -/
def Obligations.TableWordsDecode : Prop :=
  decodeTableWord 8 0x01 = some (.encode 0 0 0 []) ∧ decodeTableWord 8 0x15 = some (.memreadU32 0 0) ∧
    decodeTableWord 8 0x1A = some (.memwriteI16 0 0 0 0) ∧ decodeTableWord 8 0x21 = some (.motorwriteSw 0 0 0 0) ∧
    decodeTableWord 8 0x32 = some (.xferSend []) ∧ decodeTableWord 8 0x16 = none ∧
    decode { op := 0x10, dev := 1, addr := 0x0010, size := 2, mask := 0xFF } = .ok (.memread 1 0x0010 2)

/-- R248: the step in which a requester presents a request that names an operation runs that operation, with the request at the
host port. -/
def Obligations.StepRunsThePresentedOperation : Prop :=
  ∀ (s : State) (r : Nat) (req : Request) (rest : List Input) (i : Instr),
    s.inputs = .present r req :: rest → MayPresent s r req → decode req = .ok i →
      step s = exec i { s with inputs := rest, port := .request r req }

/-- R122: a reserved code finishes at once with E_FORMAT and changes no block state. -/
def Obligations.ReservedCodeAnswersFormatError : Prop :=
  ∀ (s : State) (r : Nat) (req : Request) (rest : List Input),
    s.inputs = .present r req :: rest → MayPresent s r req → req.op ∉ opcodes →
      step s = .next { s with
        inputs := rest
        port := .request r req
        outbox := s.outbox ++
          [{ requester := r, resp := { status := composite (hw.errorCode .format) 0, outs := {} } }] }

/-- R253, R248: a requester that waits for its response has no move, and neither has one that does not exist. -/
def Obligations.WaitingRequesterHasNoMove : Prop :=
  ∀ (s : State) (r : Nat) (req : Request) (rest : List Input),
    s.inputs = .present r req :: rest → ¬ MayPresent s r req → step s = .next { s with inputs := rest }

/-- R244: the CHECK step runs the rest of the operation in CUR for the requester that presented it, when the sequencer is given
its turn and when nothing else is listed. -/
def Obligations.CheckStepResumesTheLatchedOperation : Prop :=
  ∀ (s : State) (cur : Current) (i : Instr),
    s.block.seq = .check → s.block.tstate = .idle → s.block.cur = some cur → decode cur.req = .ok i →
      (∀ rest, s.inputs = .sequencer :: rest →
        step s = exec i { s with inputs := rest, port := .resume cur.requester }) ∧
      (s.inputs = [] → step s = exec i { s with port := .resume cur.requester })

/-- R252: while an operation is in progress, another requester's request leaves the block and the line as they are and is
answered exactly once. -/
def Obligations.BusyBlockIsUntouchedByRequests : Prop :=
  ∀ (s : State) (r : Nat) (req : Request) (rest : List Input),
    s.block.busy = true → s.inputs = .present r req :: rest → MayPresent s r req →
      ∃ t resp, step s = .next t ∧ t.block = s.block ∧ t.line = s.line ∧
        t.outbox = s.outbox ++ [{ requester := r, resp := resp }]

/-- R25, R248, R249: a request either is answered at once, exactly once, with no block state changed, or takes the idle
transport for itself. -/
def Obligations.RequestIsAnsweredOrTakesTheTransport : Prop :=
  ∀ (s : State) (r : Nat) (req : Request) (rest : List Input),
    s.inputs = .present r req :: rest → MayPresent s r req →
      ∃ t, step s = .next t ∧ t.inputs = rest ∧ t.line = s.line ∧
        ((t.block = s.block ∧ ∃ resp, t.outbox = s.outbox ++ [{ requester := r, resp := resp }]) ∨
          (s.block.busy = false ∧ t.block.busy = true ∧ t.block.cur = some { requester := r, req := req } ∧
            t.outbox = s.outbox))

/-! ### The transport -/

/-- R237: where the state machine goes on after a send; R232: the line takes all of TXBUF[0..TXLEN). That a FAILED send too is
recorded with all of those bytes is the model's choice (log entry 10, DESIGN CHOICE, unsafe). -/
def Obligations.SendCompletionFollowsTheShape : Prop :=
  ∀ (s : State) (ok : Bool) (rest : List Input) (tx : List Byte),
    s.inputs = .line (.txDone ok) :: rest → s.block.tstate = .send → tx.length = s.block.txlen → Holds s.block.txbuf tx →
      step s = .next { s with
        inputs := rest
        line := s.line ++ [{ bytes := tx, how := if ok then .completed else .failed }]
        block :=
          if ok = false then completed s.block false 0
          else match s.block.tshape with
            | .sendOnly => completed s.block true 0
            | .fixed => if s.block.rxtgt = 0 then completed s.block true 0 else { s.block with tstate := .rxFix }
            | .var => { s.block with tstate := .rxPre } }

/-- R233, R239: the fixed-length receive. -/
def Obligations.FixedReceiveStopsAtItsCount : Prop :=
  ∀ (s : State) (rest : List Input), s.block.tstate = .rxFix → s.block.rxcnt < s.block.rxtgt → s.block.rxtgt ≤ 256 →
    (∀ x, s.inputs = .line (.rxByte x) :: rest →
      ∃ buf, StoresByte s.block x buf ∧
        step s = .next { s with
          inputs := rest
          block :=
            let b := { s.block with rxbuf := buf, rxcnt := s.block.rxcnt + 1 }
            if s.block.rxcnt + 1 = s.block.rxtgt then completed b true (s.block.rxcnt + 1) else b }) ∧
    (s.inputs = .line .rxTimeout :: rest →
      step s = .next { s with inputs := rest, block := completed s.block false s.block.rxcnt })

/-- R241: the prefix of a variable-length receive. Byte 3 is read as the declared total length. -/
def Obligations.PrefixReceiveReadsTheDeclaredLength : Prop :=
  ∀ (s : State) (rest : List Input), s.block.tstate = .rxPre → s.block.rxcnt < 4 → s.block.rxtgt = 4 →
    (∀ x, s.inputs = .line (.rxByte x) :: rest →
      ∃ buf, StoresByte s.block x buf ∧
        step s = .next { s with
          inputs := rest
          block :=
            let b := { s.block with rxbuf := buf, rxcnt := s.block.rxcnt + 1 }
            if s.block.rxcnt = 3 then
              if x.toNat < 8 then completed b false 4 else { b with rxtgt := x.toNat, tstate := .rxRest }
            else b }) ∧
    (s.inputs = .line .rxTimeout :: rest →
      step s = .next { s with inputs := rest, block := completed s.block false 0 })

/-- R241: the remainder of a variable-length receive. -/
def Obligations.RemainderReceiveStopsAtTheDeclaredLength : Prop :=
  ∀ (s : State) (rest : List Input), s.block.tstate = .rxRest → s.block.rxcnt < s.block.rxtgt → s.block.rxtgt ≤ 256 →
    (∀ x, s.inputs = .line (.rxByte x) :: rest →
      ∃ buf, StoresByte s.block x buf ∧
        step s = .next { s with
          inputs := rest
          block :=
            let b := { s.block with rxbuf := buf, rxcnt := s.block.rxcnt + 1 }
            if s.block.rxcnt + 1 = s.block.rxtgt then completed b true s.block.rxtgt else b }) ∧
    (s.inputs = .line .rxTimeout :: rest →
      step s = .next { s with inputs := rest, block := completed s.block false 4 })

/-- R243: a byte outside a receive changes no state. -/
def Obligations.StrayBytesAreDropped : Prop :=
  ∀ (s : State) (x : Byte) (rest : List Input), s.inputs = .line (.rxByte x) :: rest →
    (s.block.tstate = .idle ∨ s.block.tstate = .send ∨ s.block.rxcnt = s.block.rxtgt) →
      step s = .next { s with inputs := rest }

/-- R66, R235, R302: with nothing listed, the line takes the move its oracle draws where one is enabled (log entry 2), exactly as
if that move were listed, and an idle block waits. -/
def Obligations.QuietOutsideLetsTheLineDraw : Prop :=
  ∀ s : State, s.inputs = [] →
    (s.block.tstate = .send →
      step s = step { s with
        inputs := [.line (.txDone (Config.sendCompletes s.draws))], draws := s.draws + 1 }) ∧
    ((s.block.tstate = .rxFix ∨ s.block.tstate = .rxPre ∨ s.block.tstate = .rxRest) →
      s.block.rxcnt < s.block.rxtgt →
        step s = step { s with
          inputs := [.line (if Config.timeoutFires s.draws then .rxTimeout else .rxByte (Config.lineByte s.draws))]
          draws := s.draws + 1 }) ∧
    (s.block.tstate = .idle → s.block.seq = .idle → step s = .next s)

/-- R237, R71, R236: RXBUF changes only in a receive state, TXBUF and TXLEN only where an idle block takes a transport
operation (or is reset), and the line log grows only in T_SEND, by bytes of TXBUF[0..TXLEN) (R232). That a FAILED send too is
recorded with all TXLEN bytes is the model's choice (log entry 10, DESIGN CHOICE, unsafe); a reset's part is log entry 9. -/
def Obligations.BuffersAndLineChangeOnlyInTheirStates : Prop :=
  ∀ s t : State, s.Sound → step s = .next t →
    (t.block.rxbuf ≠ s.block.rxbuf →
      (s.block.tstate = .rxFix ∨ s.block.tstate = .rxPre ∨ s.block.tstate = .rxRest) ∨ t.block = Block.reset) ∧
    ((t.block.txbuf ≠ s.block.txbuf ∨ t.block.txlen ≠ s.block.txlen) →
      (s.block.busy = false ∧ t.block.tstate = .send) ∨ t.block = Block.reset) ∧
    (t.line ≠ s.line → s.block.tstate = .send ∧
      ∃ e, t.line = s.line ++ [e] ∧ Holds s.block.txbuf e.bytes ∧ e.bytes.length ≤ s.block.txlen ∧
        (e.how ≠ .cut → e.bytes.length = s.block.txlen))

/-! ### Reset -/

/-- R301: the values the spec gives for reset. -/
def Obligations.ResetLeavesTheBlockIdle : Prop :=
  let b := State.reset.block
  b.seq = .idle ∧ b.busy = false ∧ b.tstate = .idle ∧ b.txlen = 0 ∧ b.rxcnt = 0 ∧ b.rxtgt = 0 ∧ b.cur = none ∧
    (∀ a, b.txbuf.byteAt? a = none ∧ b.rxbuf.byteAt? a = none) ∧
    (∀ r, outstanding b r = false) ∧ State.reset.outbox = []

/-- R303: a reset in any state whose frame, if one is being sent, stands in TXBUF. -/
def Obligations.ResetAbortsWithoutResponse : Prop :=
  ∀ (s : State) (k : Nat) (rest : List Input) (tx : List Byte), s.inputs = .reset k :: rest →
    tx.length = s.block.txlen → Holds s.block.txbuf tx →
      ∃ t, step s = .next t ∧ t.inputs = rest ∧ t.outbox = s.outbox ∧
        t.block.seq = .idle ∧ t.block.busy = false ∧ t.block.tstate = .idle ∧ t.block.txlen = 0 ∧
        t.block.rxcnt = 0 ∧ t.block.rxtgt = 0 ∧ t.block.cur = none ∧
        (∀ a, t.block.txbuf.byteAt? a = none ∧ t.block.rxbuf.byteAt? a = none) ∧
        (t.line = s.line ∨ (s.block.tstate = .send ∧ t.line = s.line ++ [{ bytes := tx.take k, how := .cut }]))

/-! ### Whole-machine statements -/

/-- The invariant holds after reset. -/
def Obligations.ResetIsSound : Prop := State.reset.Sound

/-- Every step keeps the invariant: the buffers stay canonical, BUSY, SEQ, TSTATE and CUR agree, the valid bytes of the buffers
hold values, and the operation in CUR is one whose own frame stands in TXBUF. -/
def Obligations.StepKeepsSound : Prop := ∀ s t : State, s.Sound → step s = .next t → t.Sound

/-- R29, 93_implementation_defined.md I7: no step of a sound state stops. -/
def Obligations.SoundStepNeverStops : Prop := ∀ s : State, s.Sound → ∃ t, step s = .next t

/-- R29: a buffer read that reaches an invalid byte is a fault, not a value. -/
def Obligations.InvalidByteIsAFault : Prop :=
  ∀ (m : Memory) (valid i n : Nat), valid < i + n → 0 < n → memRead m valid i n = .error .invalidByte

/-- R235, R248: with the line acting by its oracle, whatever that draws, an accepted operation finishes within 257 steps, and its
requester gets exactly one response. -/
def Obligations.AcceptedOperationFinishes : Prop :=
  ∀ (s : State) (cur : Current), s.Sound → s.inputs = [] → s.block.cur = some cur →
    ∃ n t resp, n ≤ 257 ∧ after n s = .next t ∧ t.block.busy = false ∧ t.block.cur = none ∧
      t.outbox = s.outbox ++ [{ requester := cur.requester, resp := resp }]

/-- R25, R251: an operation that took the transport keeps it, and CUR, until a step delivers its response or a reset takes it
away; no other request's response ends it. -/
def Obligations.OperationKeepsTheTransportUntilItEnds : Prop :=
  ∀ (s t : State) (cur : Current), s.Sound → s.block.cur = some cur → step s = .next t →
    (t.block.busy = true ∧ t.block.cur = some cur ∧
      ∀ d, t.outbox = s.outbox ++ [d] → d.requester ≠ cur.requester) ∨
    (t.block.busy = false ∧ t.block.cur = none ∧ s.block.seq = .check ∧
      ∃ resp, t.outbox = s.outbox ++ [{ requester := cur.requester, resp := resp }]) ∨
    ((∃ k rest, s.inputs = .reset k :: rest) ∧ t.block = Block.reset ∧ t.outbox = s.outbox)

/-- R271, R274, R277: every response a step delivers is one, and its status names at most one error class. -/
def Obligations.DeliveredStatusNamesOneClass : Prop :=
  ∀ s t : State, step s = .next t →
    t.outbox = s.outbox ∨ ∃ d, t.outbox = s.outbox ++ [d] ∧ ComposedOfOneClass d.resp.status

/-- R100, R232, R236: what a step puts on the line is the request of the operation in CUR, whole, or cut short by a reset (R303,
log entry 9). That a FAILED send too is recorded with the whole request is the model's choice (log entry 10, DESIGN CHOICE,
unsafe). -/
def Obligations.LineCarriesTheLatchedRequest : Prop :=
  ∀ s t : State, s.Sound → step s = .next t → t.line ≠ s.line →
    ∃ cur i op e, s.block.cur = some cur ∧ decode cur.req = .ok i ∧ transactionOf hw i = some op ∧
      t.line = s.line ++ [e] ∧ (e.bytes = op.tx ∨ (e.how = .cut ∧ ∃ k, e.bytes = op.tx.take k))

/-- R18, R63, R280: what a finished operation leaves in the buffers, the counts, TSHAPE and TRES is dead. Two sound states that
agree on the rest take the same step. -/
def Obligations.ScratchIsNeverRead : Prop :=
  ∀ s s' : State, s.Sound → s'.Sound → SameOutside s s' → LiveEq s.block s'.block →
    ∃ t t', step s = .next t ∧ step s' = .next t' ∧ SameOutside t t' ∧ LiveEq t.block t'.block

/-- R151, R102, R19 as a whole: from any sound idle state, a MEMREAD whose request is sent and answered with a well-formed frame
delivers exactly the payload and the device status byte, and puts exactly its request on the line. -/
def Obligations.MemreadDeliversTheAnsweredPayload : Prop :=
  ∀ (s : State) (r : Nat) (dev : Byte) (addr : HalfWord) (size id st : Byte) (payload : List Byte) (rest : List Input),
    s.Sound → s.block.busy = false → r < hw.nreq → payload.length = size.toNat →
    1 ≤ size.toNat → size.toNat ≤ 243 →
    s.inputs = .present r (encode (.memread dev addr size)) ::
      (exchange (frame hw id (hw.command .memRead) st payload) ++ .sequencer :: rest) →
      ∃ t, after (size.toNat + 11) s = .next t ∧ t.inputs = rest ∧ t.block.busy = false ∧
        t.outbox = s.outbox ++
          [{ requester := r, resp := { status := composite 0 st, outs := { data := some payload } } }] ∧
        t.line = s.line ++
          [{ bytes := withChecksum [0xFE, 0xFE, dev, 0x0B, hw.command .memRead, 0x00, addr.extractLsb' 0 8,
              addr.extractLsb' 8 8, size]
             how := .completed }]

/-- R195, R192, R240 as a whole: from any sound idle state, a MOTORREAD answered through the variable-length receive with the
selected fields in canonical order delivers each of them in its slot, and the torque-switch byte. -/
def Obligations.MotorreadDeliversTheSelectedFields : Prop :=
  ∀ (s : State) (r : Nat) (dev mask cmode id st tsw : Byte) (g : Field → HalfWord) (rest : List Input),
    s.Sound → s.block.busy = false → r < hw.nreq →
    s.inputs = .present r (encode (.motorread dev mask cmode)) ::
      (exchange (frame hw id (hw.command .motorRead) st
        (tsw :: (Field.all.filter (·.selected mask)).flatMap fun x => le16 (g x))) ++ .sequencer :: rest) →
      ∃ t sample, after (12 + 2 * setBits mask) s = .next t ∧ t.inputs = rest ∧ t.block.busy = false ∧
        t.outbox = s.outbox ++
          [{ requester := r
             resp := { status := composite 0 st, outs := { sample := some sample, tswState := some tsw } } }] ∧
        ∀ f : Field, sample.slot f =
          if mask.getLsbD f.index then decodeField hw.posCtrlMask f (g f) cmode else 0x7FFF

/-- R254, R246 as a whole: a variable-length round trip that times out delivers no byte where the prefix fell short, and exactly
the prefix where the remainder did. -/
def Obligations.VariableReceiveShortfallDeliversThePrefix : Prop :=
  ∀ (s : State) (r : Nat) (tx got : List Byte) (rest : List Input),
    s.Sound → s.block.busy = false → r < hw.nreq → 1 ≤ tx.length → tx.length ≤ 256 →
    got.length < 255 → (4 ≤ got.length → 8 ≤ (byteOf got 3).toNat ∧ got.length < (byteOf got 3).toNat) →
    s.inputs = .present r (encode (.xferVar tx)) ::
      (exchange got ++ .line .rxTimeout :: .sequencer :: rest) →
      ∃ t, after (got.length + 4) s = .next t ∧ t.inputs = rest ∧ t.block.busy = false ∧
        t.outbox = s.outbox ++
          [{ requester := r
             resp := { status := composite (hw.errorCode .timeout) 0
                       outs := rawOutputs false (if got.length < 4 then [] else got.take 4) } }]
end

