-- ==== Sys2Proof/Laws/Memory.lean ====
section
/-! SUPPORT. The buffers: a read after a write, the canonical form, and what MemWrite and MemRead answer. -/

namespace Sys2Proof.Machine

/-- A read after a write of one byte. -/
@[simp] theorem byteAt?_store (m : Memory) (a x : Nat) (b : Byte) :
    (m.store a b).byteAt? x = if x = a then some b else m.byteAt? x := by
  induction m with
  | nil => simp [Memory.store, Memory.byteAt?]
  | cons kv rest ih =>
    obtain ⟨k, v⟩ := kv
    by_cases hlt : a < k
    · simp [Memory.store, hlt, Memory.byteAt?]
    · by_cases heq : a = k
      · subst heq
        by_cases hx : x = a <;> simp [Memory.store, Memory.byteAt?, hx]
      · simp only [Memory.store, hlt, heq, if_false, Memory.byteAt?, ih]
        by_cases hx : x = k
        · subst hx
          simp [Ne.symm heq]
        · simp [hx]

theorem risingFrom_store {m : Memory} {lo a : Nat} {b : Byte} (h : m.risingFrom lo = true) (hlo : lo ≤ a)
    (ha : a < BUFSIZE) : (m.store a b).risingFrom lo = true := by
  induction m generalizing lo with
  | nil =>
    have : a < 256 := ha
    simp [Memory.store, Memory.risingFrom, hlo, this]
  | cons kv rest ih =>
    obtain ⟨k, v⟩ := kv
    have ha' : a < 256 := ha
    simp only [Memory.risingFrom, Bool.and_eq_true, decide_eq_true_eq] at h
    obtain ⟨⟨h1, h2⟩, h3⟩ := h
    by_cases hlt : a < k
    · simp [Memory.store, hlt, Memory.risingFrom, hlo, ha', h2, h3]
    · by_cases heq : a = k
      · subst heq
        simp [Memory.store, Memory.risingFrom, h1, h2, h3]
      · simp only [Memory.store, hlt, heq, if_false, Memory.risingFrom, Bool.and_eq_true, decide_eq_true_eq]
        exact ⟨⟨h1, h2⟩, ih h3 (by omega)⟩

/-- A write inside the buffer keeps the canonical form. -/
theorem store_wf {m : Memory} {a : Nat} {b : Byte} (h : m.wf = true) (ha : a < BUFSIZE) : (m.store a b).wf = true :=
  risingFrom_store h (Nat.zero_le a) ha

/-- MemWrite answers exactly when every byte lands inside the buffer. -/
theorem memWrite_ok {bs : List Byte} (m : Memory) (i : Nat) (h : i + bs.length ≤ BUFSIZE) :
    ∃ m', memWrite m i bs = .ok m' := by
  induction bs generalizing m i with
  | nil => exact ⟨m, rfl⟩
  | cons b bs ih =>
    simp only [List.length_cons] at h
    have hi : i < BUFSIZE := by omega
    simp only [memWrite, hi, if_true]
    exact ih _ _ (by omega)

/-- What a MemWrite leaves in the buffer: the bytes at their offsets, and every other offset as it was. -/
theorem memWrite_byteAt? {bs : List Byte} {m m' : Memory} {i : Nat} (h : memWrite m i bs = .ok m') (x : Nat) :
    m'.byteAt? x = if i ≤ x ∧ x < i + bs.length then bs[x - i]? else m.byteAt? x := by
  induction bs generalizing m i with
  | nil =>
    simp only [memWrite, Except.ok.injEq] at h
    subst h
    rw [if_neg]
    simp only [List.length_nil]
    omega
  | cons b bs ih =>
    simp only [memWrite] at h
    split at h
    · rw [ih h]
      simp only [List.length_cons, byteAt?_store]
      by_cases hx : x = i
      · subst hx
        simp
      · by_cases hr : i + 1 ≤ x ∧ x < i + 1 + bs.length
        · rw [if_pos hr, if_pos (by omega)]
          have hd : x - i = (x - (i + 1)) + 1 := by omega
          rw [hd, List.getElem?_cons_succ]
        · rw [if_neg hr, if_neg hx, if_neg (by omega)]
    · cases h

/-- MemWrite keeps the canonical form. -/
theorem memWrite_wf {bs : List Byte} {m m' : Memory} {i : Nat} (h : memWrite m i bs = .ok m') (hm : m.wf = true) :
    m'.wf = true := by
  induction bs generalizing m i with
  | nil =>
    simp only [memWrite, Except.ok.injEq] at h
    exact h ▸ hm
  | cons b bs ih =>
    simp only [memWrite] at h
    split at h
    · rename_i hi
      exact ih h (store_wf hm hi)
    · cases h

/-- MemRead answers the listed bytes wherever all of them are valid and listed. -/
theorem memRead_ok {m : Memory} {valid i : Nat} {bs : List Byte} (hv : i + bs.length ≤ valid)
    (h : ∀ a, a < bs.length → m.byteAt? (i + a) = bs[a]?) : memRead m valid i bs.length = .ok bs := by
  induction bs generalizing i with
  | nil => rfl
  | cons b bs ih =>
    simp only [List.length_cons] at hv
    have hb : m.byteAt? i = some b := by simpa using h 0 (by simp)
    have hi : i < valid := by omega
    have ht : memRead m valid (i + 1) bs.length = .ok bs := by
      refine ih (by omega) fun a ha => ?_
      have h' := h (a + 1) (by simpa using ha)
      rw [show i + 1 + a = i + (a + 1) by omega, h']
      simp
    simp [memRead, hi, hb, ht]

/-- Where every valid byte is listed, MemRead of a valid range answers that many bytes. -/
theorem memRead_filled {m : Memory} {valid i n : Nat} (hf : Filled m valid) (hv : i + n ≤ valid) :
    ∃ bs, memRead m valid i n = .ok bs ∧ bs.length = n ∧ ∀ a, a < n → m.byteAt? (i + a) = bs[a]? := by
  induction n generalizing i with
  | zero => exact ⟨[], rfl, rfl, fun a ha => absurd ha (Nat.not_lt_zero a)⟩
  | succ n ih =>
    obtain ⟨b, hb⟩ := Option.isSome_iff_exists.mp (hf i (by omega))
    obtain ⟨bs, h1, h2, h3⟩ := ih (i := i + 1) (by omega)
    have hi : i < valid := by omega
    refine ⟨b :: bs, by simp [memRead, hi, hb, h1], by simp [h2], fun a ha => ?_⟩
    cases a with
    | zero => simpa using hb
    | succ a =>
      rw [show i + (a + 1) = i + 1 + a by omega, h3 a (by omega)]
      simp

end Sys2Proof.Machine
end

