-- ==== Sys2Proof/Laws/State.lean ====
section
/-! SUPPORT. The state's updates, field by field, each true by definition. -/

namespace Sys2Proof.Machine

variable (s : State) (r : Nat) (resp : Response) (ok : Bool) (len : Nat) (b : Block)

@[simp] theorem deliver_block : (s.deliver r resp).block = s.block := rfl
@[simp] theorem deliver_port : (s.deliver r resp).port = s.port := rfl
@[simp] theorem deliver_inputs : (s.deliver r resp).inputs = s.inputs := rfl
@[simp] theorem deliver_outbox :
    (s.deliver r resp).outbox = s.outbox ++ [{ requester := r, resp := resp }] := rfl
@[simp] theorem deliver_line : (s.deliver r resp).line = s.line := rfl
@[simp] theorem deliver_draws : (s.deliver r resp).draws = s.draws := rfl

@[simp] theorem release_seq : b.release.seq = .idle := rfl
@[simp] theorem release_busy : b.release.busy = false := rfl
@[simp] theorem release_tstate : b.release.tstate = .idle := rfl
@[simp] theorem release_tshape : b.release.tshape = b.tshape := rfl
@[simp] theorem release_tres : b.release.tres = b.tres := rfl
@[simp] theorem release_txbuf : b.release.txbuf = b.txbuf := rfl
@[simp] theorem release_txlen : b.release.txlen = b.txlen := rfl
@[simp] theorem release_rxbuf : b.release.rxbuf = b.rxbuf := rfl
@[simp] theorem release_rxcnt : b.release.rxcnt = b.rxcnt := rfl
@[simp] theorem release_rxtgt : b.release.rxtgt = b.rxtgt := rfl
@[simp] theorem release_cur : b.release.cur = none := rfl

@[simp] theorem complete_seq : (complete ok len s).block.seq = .check := rfl
@[simp] theorem complete_busy : (complete ok len s).block.busy = s.block.busy := rfl
@[simp] theorem complete_tstate : (complete ok len s).block.tstate = .idle := rfl
@[simp] theorem complete_tshape : (complete ok len s).block.tshape = s.block.tshape := rfl
@[simp] theorem complete_tres : (complete ok len s).block.tres = { ok := ok, rxLen := len } := rfl
@[simp] theorem complete_txbuf : (complete ok len s).block.txbuf = s.block.txbuf := rfl
@[simp] theorem complete_txlen : (complete ok len s).block.txlen = s.block.txlen := rfl
@[simp] theorem complete_rxbuf : (complete ok len s).block.rxbuf = s.block.rxbuf := rfl
@[simp] theorem complete_rxcnt : (complete ok len s).block.rxcnt = s.block.rxcnt := rfl
@[simp] theorem complete_rxtgt : (complete ok len s).block.rxtgt = s.block.rxtgt := rfl
@[simp] theorem complete_cur : (complete ok len s).block.cur = s.block.cur := rfl
@[simp] theorem complete_port : (complete ok len s).port = s.port := rfl
@[simp] theorem complete_inputs : (complete ok len s).inputs = s.inputs := rfl
@[simp] theorem complete_outbox : (complete ok len s).outbox = s.outbox := rfl
@[simp] theorem complete_line : (complete ok len s).line = s.line := rfl
@[simp] theorem complete_draws : (complete ok len s).draws = s.draws := rfl

variable (shape : TShape) (tx : List Byte) (m : Nat) (buf : Memory) (cur : Current)

@[simp] theorem start_seq : (b.start shape tx m buf).seq = .xfer := rfl
@[simp] theorem start_busy : (b.start shape tx m buf).busy = b.busy := rfl
@[simp] theorem start_tstate : (b.start shape tx m buf).tstate = .send := rfl
@[simp] theorem start_tshape : (b.start shape tx m buf).tshape = shape := rfl
@[simp] theorem start_tres : (b.start shape tx m buf).tres = b.tres := rfl
@[simp] theorem start_txbuf : (b.start shape tx m buf).txbuf = buf := rfl
@[simp] theorem start_txlen : (b.start shape tx m buf).txlen = tx.length := rfl
@[simp] theorem start_rxbuf : (b.start shape tx m buf).rxbuf = b.rxbuf := rfl
@[simp] theorem start_rxcnt : (b.start shape tx m buf).rxcnt = 0 := rfl
@[simp] theorem start_rxtgt : (b.start shape tx m buf).rxtgt = firstTarget shape m := rfl
@[simp] theorem start_cur : (b.start shape tx m buf).cur = b.cur := rfl

@[simp] theorem take_seq : (b.take cur).seq = .build := rfl
@[simp] theorem take_busy : (b.take cur).busy = true := rfl
@[simp] theorem take_tstate : (b.take cur).tstate = b.tstate := rfl
@[simp] theorem take_tshape : (b.take cur).tshape = b.tshape := rfl
@[simp] theorem take_tres : (b.take cur).tres = b.tres := rfl
@[simp] theorem take_txbuf : (b.take cur).txbuf = b.txbuf := rfl
@[simp] theorem take_txlen : (b.take cur).txlen = b.txlen := rfl
@[simp] theorem take_rxbuf : (b.take cur).rxbuf = b.rxbuf := rfl
@[simp] theorem take_rxcnt : (b.take cur).rxcnt = b.rxcnt := rfl
@[simp] theorem take_rxtgt : (b.take cur).rxtgt = b.rxtgt := rfl
@[simp] theorem take_cur : (b.take cur).cur = some cur := rfl

end Sys2Proof.Machine
end

