-- ==== Sys2Proof/Laws/Ops.lean ====
section
/-! SUPPORT. One lemma per shared operation: what it answers at each kind of step, and everything it can do. The lemmas
about a meaning cite these and do not unfold the operations again. -/

namespace Sys2Proof.Machine

/-! ### finish and raise -/

/-- At a Present step, `finish` changes no block state (R13). -/
theorem finish_request {s : State} {r : Nat} {req : Request} (h : s.port = .request r req) (resp : Response) :
    finish resp s = .next (s.deliver r resp) := by
  simp [finish, h]

/-- At a CHECK step, `finish` gives the transport up (R13). -/
theorem finish_resume {s : State} {r : Nat} (h : s.port = .resume r) (resp : Response) :
    finish resp s = .next ({ s with block := s.block.release }.deliver r resp) := by
  simp [finish, h]

/-- Everything `finish` can do. -/
theorem finish_cases {resp : Response} {s t : State} (h : finish resp s = .next t) :
    (∃ r req, s.port = .request r req ∧ t = s.deliver r resp) ∨
      (∃ r, s.port = .resume r ∧ t = { s with block := s.block.release }.deliver r resp) := by
  unfold finish at h
  split at h
  · cases h
  · rename_i r req hp
    cases h
    exact .inl ⟨r, req, hp, rfl⟩
  · rename_i r hp
    cases h
    exact .inr ⟨r, hp, rfl⟩

/-! ### StartTransfer -/

/-- A StartTransfer of at most 256 bytes (R236): the whole next state. -/
theorem startTransfer_eq (shape : TShape) {tx : List Byte} (m : Nat) (s : State) (h : tx.length ≤ BUFSIZE) :
    ∃ buf, memWrite s.block.txbuf 0 tx = .ok buf ∧
      startTransfer shape tx m s = .next { s with block := s.block.start shape tx m buf } := by
  obtain ⟨buf, hb⟩ := memWrite_ok s.block.txbuf 0 (bs := tx) (by omega)
  exact ⟨buf, hb, by simp [startTransfer, hb, orFault]⟩

/-! ### transact -/

/-- An argument failure (R248, R277): the response, and nothing else. -/
theorem transact_badArgs {c : Config} {op : Transaction} {s : State} {r : Nat} {req : Request}
    (hp : s.port = .request r req) (ha : op.argsOk = false) :
    transact c op s = .next (s.deliver r (raised c .format op.sentinel)) := by
  simp [transact, hp, ha, raise, finish_request hp]

/-- A busy rejection (R250): the response, and nothing else. -/
theorem transact_busy {c : Config} {op : Transaction} {s : State} {r : Nat} {req : Request}
    (hp : s.port = .request r req) (ha : op.argsOk = true) (hb : s.block.busy = true) :
    transact c op s = .next (s.deliver r (raised c op.failClass op.sentinel)) := by
  simp [transact, hp, ha, acquire, hb, raise, finish_request hp]

/-- An acceptance (R249, R236): the whole next state. -/
theorem transact_accept {c : Config} {op : Transaction} {s : State} {r : Nat} {req : Request}
    (hp : s.port = .request r req) (ha : op.argsOk = true) (hb : s.block.busy = false)
    (hl : op.tx.length ≤ BUFSIZE) :
    ∃ buf, memWrite s.block.txbuf 0 op.tx = .ok buf ∧
      transact c op s =
        .next { s with block := (s.block.take ⟨r, req⟩).start op.shape op.tx op.m buf } := by
  obtain ⟨buf, h1, h2⟩ := startTransfer_eq op.shape op.m { s with block := s.block.take ⟨r, req⟩ } hl
  exact ⟨buf, h1, by simpa [transact, hp, ha, acquire, hb] using h2⟩

/-- A CHECK step (R244): the response to what the transfer received, and the transport given up. -/
theorem transact_check {c : Config} {op : Transaction} {s : State} {r : Nat} {rx : List Byte}
    (hp : s.port = .resume r)
    (hr : memRead s.block.rxbuf s.block.rxcnt 0 s.block.tres.rxLen = .ok rx) :
    transact c op s =
      .next ({ s with block := s.block.release }.deliver r (op.check s.block.tres.ok rx)) := by
  simp [transact, hp, hr, orFault, finish_resume hp]

/-- Everything a transport operation's step can do. -/
theorem transact_cases {c : Config} {op : Transaction} {s t : State} (h : transact c op s = .next t) :
    (∃ r req, s.port = .request r req ∧ op.argsOk = false ∧
        t = s.deliver r (raised c .format op.sentinel)) ∨
    (∃ r req, s.port = .request r req ∧ op.argsOk = true ∧ s.block.busy = true ∧
        t = s.deliver r (raised c op.failClass op.sentinel)) ∨
    (∃ r req buf, s.port = .request r req ∧ op.argsOk = true ∧ s.block.busy = false ∧
        memWrite s.block.txbuf 0 op.tx = .ok buf ∧
        t = { s with block := (s.block.take ⟨r, req⟩).start op.shape op.tx op.m buf }) ∨
    (∃ r rx, s.port = .resume r ∧
        memRead s.block.rxbuf s.block.rxcnt 0 s.block.tres.rxLen = .ok rx ∧
        t = { s with block := s.block.release }.deliver r (op.check s.block.tres.ok rx)) := by
  cases hp : s.port with
  | quiet => simp [transact, hp] at h
  | request r req =>
    cases ha : op.argsOk with
    | false =>
      rw [transact_badArgs hp ha] at h
      cases h
      exact .inl ⟨r, req, rfl, rfl, rfl⟩
    | true =>
      cases hb : s.block.busy with
      | true =>
        rw [transact_busy hp ha hb] at h
        cases h
        exact .inr (.inl ⟨r, req, rfl, rfl, rfl, rfl⟩)
      | false =>
        simp only [transact, hp, ha, if_true, acquire, hb, Bool.false_eq_true, if_false, startTransfer] at h
        cases hw : memWrite s.block.txbuf 0 op.tx with
        | error f => simp [take_txbuf, hw, orFault] at h
        | ok buf =>
          simp only [take_txbuf, hw, orFault, Host.Outcome.next.injEq] at h
          exact .inr (.inr (.inl ⟨r, req, buf, rfl, rfl, rfl, rfl, h.symm⟩))
  | resume r =>
    cases hr : memRead s.block.rxbuf s.block.rxcnt 0 s.block.tres.rxLen with
    | error f => simp [transact, hp, hr, orFault] at h
    | ok rx =>
      rw [transact_check hp hr] at h
      cases h
      exact .inr (.inr (.inr ⟨r, rx, rfl, rfl, by simp [hp]⟩))

/-! ### exec -/

/-- A transport operation's meaning is `transact` of it. -/
theorem exec_transaction {i : Instr} {op : Transaction} (h : transactionOf Config.hw i = some op) (s : State) :
    exec i s = transact Config.hw op s := by
  cases i <;> simp only [transactionOf, reduceCtorEq, Option.some.injEq] at h <;> subst h <;> rfl

/-- An operation with no transport answers by `finish` alone (R249). -/
theorem exec_pure {i : Instr} (h : transactionOf Config.hw i = none) (s : State) :
    ∃ resp, exec i s = finish resp s := by
  cases i <;> simp only [transactionOf, reduceCtorEq] at h
  · exact ⟨_, rfl⟩
  · exact ⟨_, rfl⟩
  · exact ⟨_, rfl⟩

/-! ### the line's steps -/

/-- A send that ends in T_SEND (R237). -/
theorem txDone_send {s : State} (ok : Bool) {tx : List Byte} (ht : s.block.tstate = .send)
    (hr : memRead s.block.txbuf s.block.txlen 0 s.block.txlen = .ok tx) :
    txDone ok s =
      .next (afterSend ok { s with line := s.line ++ [{ bytes := tx, how := if ok then .completed else .failed }] }) := by
  simp [txDone, ht, hr, orFault]

/-- A received byte is stored at RXCNT (R233). -/
theorem rxByte_receiving {s : State} (b : Byte) (hr : receiving s.block = true) (hc : s.block.rxcnt < BUFSIZE) :
    rxByte b s = afterByte { s with
      block := { s.block with rxbuf := s.block.rxbuf.store s.block.rxcnt b, rxcnt := s.block.rxcnt + 1 } } := by
  simp [rxByte, hr, memWrite, hc, orFault]

/-- A byte outside a receive is dropped (R243). -/
theorem rxByte_dropped {s : State} (b : Byte) (hr : receiving s.block = false) : rxByte b s = .next s := by
  simp [rxByte, hr]

/-- A timeout outside a receive is no step of the line (R234). -/
theorem rxTimeout_disabled {s : State} (hr : receiving s.block = false) : rxTimeout s = .next s := by
  simp [rxTimeout, hr]

/-! ### requests -/

/-- A request that names an operation runs it. -/
theorem runRequest_ok {req : Request} {i : Instr} (h : decode req = .ok i) (s : State) : runRequest req s = exec i s := by
  simp [runRequest, h]

/-- A reserved code is answered (R122). -/
theorem runRequest_error {req : Request} {e : DecodeError} (h : decode req = .error e) (s : State) :
    runRequest req s = execReserved s := by
  simp [runRequest, h]

end Sys2Proof.Machine
end

