-- ==== Sys2Proof/Laws/Codec.lean ====
section
/-! SUPPORT. The frame codec and the transport operations: lengths, a frame taken apart, and what every accepted operation's
request and first receive count are bounded by. -/

namespace Sys2Proof.Machine

@[simp] theorem le16_length (v : HalfWord) : (le16 v).length = 2 := rfl

@[simp] theorem le32_length (v : Word) : (le32 v).length = 4 := rfl

/-- The invariant `length == 8 + payloadSize` (R92). -/
@[simp] theorem frame_length (c : Config) (dev cmd opt : Byte) (p : List Byte) :
    (frame c dev cmd opt p).length = 8 + p.length := by
  simp [frame]
  omega

/-- Each target takes two bytes (R108). -/
theorem flatMap_le16_length (ts : List HalfWord) : (ts.flatMap le16).length = 2 * ts.length := by
  induction ts with
  | nil => rfl
  | cons t ts ih =>
    simp only [List.flatMap_cons, List.length_append, le16_length, ih, List.length_cons]
    omega

/-- `LE16` reads back what `le16` wrote (R12). -/
theorem le16_rejoin (v : HalfWord) : v.extractLsb' 8 8 ++ v.extractLsb' 0 8 = v := by
  apply BitVec.eq_of_getLsbD_eq
  intro i hi
  simp only [BitVec.getLsbD_append, BitVec.getLsbD_extractLsb']
  split
  · simp_all
  · have h : i - 8 < 8 := by omega
    simp only [h, decide_true, Bool.true_and]
    congr 1
    omega

/-- A validation, of a frame taken apart (R133). -/
theorem validate_parts (c : Config) (h0 h1 id len cm st : Byte) (p : List Byte) (lo hi cmd hdr : Byte) :
    validate c ([h0, h1, id, len, cm, st] ++ p ++ [lo, hi]) cmd hdr =
      if h0 ≠ hdr ∨ h1 ≠ hdr then .error .recv
      else if cm &&& 0x7F ≠ cmd then .error .recv
      else if hi ++ lo = c.crc16 ([h0, h1, id, len, cm, st] ++ p) then .ok st
      else .error .crc := by
  have hlen : ¬ ([h0, h1, id, len, cm, st] ++ p ++ [lo, hi]).length < MINFRAME := by simp [MINFRAME]
  have hv : verify c ([h0, h1, id, len, cm, st] ++ p ++ [lo, hi]) =
      decide (hi ++ lo = c.crc16 ([h0, h1, id, len, cm, st] ++ p)) := by
    have htake : ([h0, h1, id, len, cm, st] ++ p ++ [lo, hi]).take
        (([h0, h1, id, len, cm, st] ++ p ++ [lo, hi]).length - 2) = [h0, h1, id, len, cm, st] ++ p := by
      simp
    have hle : LE16 ([h0, h1, id, len, cm, st] ++ p ++ [lo, hi])
        (([h0, h1, id, len, cm, st] ++ p ++ [lo, hi]).length - 2) = hi ++ lo := by
      simp [LE16, byteOf, List.getD_eq_getElem?_getD]
    rw [verify, htake, hle]
  rw [validate, if_neg hlen, hv]
  simp only [decide_eq_true_eq]
  rfl

/-- Every accepted operation's request fits TXBUF and is not empty (R236). -/
theorem transaction_tx_length {i : Instr} {op : Transaction} (h : transactionOf Config.hw i = some op)
    (ha : op.argsOk = true) : 1 ≤ op.tx.length ∧ op.tx.length ≤ BUFSIZE := by
  cases i <;> simp only [transactionOf, reduceCtorEq, Option.some.injEq] at h <;> subst h <;>
    simp only [memread, memreadU8, memreadI16, memreadU16, memreadI32, memreadU32, typedRead, memwrite, memwriteU8,
      memwriteI16, memwriteU16, memwriteI32, memwriteU32, motorread, motorwrite, motorwriteSw, motorwriteT,
      motorwriteT1, motorwriteT2, motorwriteT3, xferFixed, xferVar, xferSend, xferArgsOk, frame_length, le16_length,
      le32_length, flatMap_le16_length, List.length_append, List.length_take, List.length_cons, List.length_nil,
      BUFSIZE, MEMREAD_MAX, MEMWRITE_MAX, MAXTARGETS, decide_eq_true_eq] at ha ⊢ <;>
    omega

/-- No accepted operation waits for more than MAXFRAME bytes first (R236). -/
theorem transaction_target_le {i : Instr} {op : Transaction} (h : transactionOf Config.hw i = some op)
    (ha : op.argsOk = true) : firstTarget op.shape op.m ≤ MAXFRAME := by
  cases i <;> simp only [transactionOf, reduceCtorEq, Option.some.injEq] at h <;> subst h <;>
    simp only [memread, memreadU8, memreadI16, memreadU16, memreadI32, memreadU32, typedRead, memwrite, memwriteU8,
      memwriteI16, memwriteU16, memwriteI32, memwriteU32, motorread, motorwrite, motorwriteSw, motorwriteT,
      motorwriteT1, motorwriteT2, motorwriteT3, xferFixed, xferVar, xferSend, firstTarget, MEMREAD_MAX, MEMWRITE_MAX,
      MAXTARGETS, MAXFRAME, MINFRAME, VAR_PREFIX, decide_eq_true_eq] at ha ⊢ <;>
    first
    | omega
    | (split <;> simp)

end Sys2Proof.Machine
end

