-- ==== Sys2Proof/Laws/PerInstr.lean ====
section
/-! SUPPORT. Statements about every instruction as syntax, one lemma a constructor. -/

namespace Sys2Proof.Laws

/-- An instruction is well formed exactly when the request that asks for it fits the request record's `data` field
(10_state.md rule R23). -/
def DataFitsRecord.Statement (i : Instr) : Prop := i.wf = true ↔ (encode i).data.length ≤ 256

theorem DataFitsRecord.encode (dev cmd opt : Byte) (data : List Byte) :
    DataFitsRecord.Statement (.encode dev cmd opt data) :=
  decide_eq_true_iff

theorem DataFitsRecord.validate (data : List Byte) (cmd hdr : Byte) :
    DataFitsRecord.Statement (.validate data cmd hdr) :=
  decide_eq_true_iff

theorem DataFitsRecord.fieldcount (mask : Byte) :
    DataFitsRecord.Statement (.fieldcount mask) :=
  ⟨fun _ => Nat.zero_le _, fun _ => rfl⟩

theorem DataFitsRecord.memread (dev : Byte) (addr : HalfWord) (size : Byte) :
    DataFitsRecord.Statement (.memread dev addr size) :=
  ⟨fun _ => Nat.zero_le _, fun _ => rfl⟩

theorem DataFitsRecord.memreadU8 (dev : Byte) (addr : HalfWord) :
    DataFitsRecord.Statement (.memreadU8 dev addr) :=
  ⟨fun _ => Nat.zero_le _, fun _ => rfl⟩

theorem DataFitsRecord.memreadI16 (dev : Byte) (addr : HalfWord) :
    DataFitsRecord.Statement (.memreadI16 dev addr) :=
  ⟨fun _ => Nat.zero_le _, fun _ => rfl⟩

theorem DataFitsRecord.memreadU16 (dev : Byte) (addr : HalfWord) :
    DataFitsRecord.Statement (.memreadU16 dev addr) :=
  ⟨fun _ => Nat.zero_le _, fun _ => rfl⟩

theorem DataFitsRecord.memreadI32 (dev : Byte) (addr : HalfWord) :
    DataFitsRecord.Statement (.memreadI32 dev addr) :=
  ⟨fun _ => Nat.zero_le _, fun _ => rfl⟩

theorem DataFitsRecord.memreadU32 (dev : Byte) (addr : HalfWord) :
    DataFitsRecord.Statement (.memreadU32 dev addr) :=
  ⟨fun _ => Nat.zero_le _, fun _ => rfl⟩

theorem DataFitsRecord.memwrite (dev : Byte) (addr : HalfWord) (data : List Byte) (wopt : Byte) :
    DataFitsRecord.Statement (.memwrite dev addr data wopt) :=
  decide_eq_true_iff

theorem DataFitsRecord.memwriteU8 (dev : Byte) (addr : HalfWord) (scalar : Word) (wopt : Byte) :
    DataFitsRecord.Statement (.memwriteU8 dev addr scalar wopt) :=
  ⟨fun _ => Nat.zero_le _, fun _ => rfl⟩

theorem DataFitsRecord.memwriteI16 (dev : Byte) (addr : HalfWord) (scalar : Word) (wopt : Byte) :
    DataFitsRecord.Statement (.memwriteI16 dev addr scalar wopt) :=
  ⟨fun _ => Nat.zero_le _, fun _ => rfl⟩

theorem DataFitsRecord.memwriteU16 (dev : Byte) (addr : HalfWord) (scalar : Word) (wopt : Byte) :
    DataFitsRecord.Statement (.memwriteU16 dev addr scalar wopt) :=
  ⟨fun _ => Nat.zero_le _, fun _ => rfl⟩

theorem DataFitsRecord.memwriteI32 (dev : Byte) (addr : HalfWord) (scalar : Word) (wopt : Byte) :
    DataFitsRecord.Statement (.memwriteI32 dev addr scalar wopt) :=
  ⟨fun _ => Nat.zero_le _, fun _ => rfl⟩

theorem DataFitsRecord.memwriteU32 (dev : Byte) (addr : HalfWord) (scalar : Word) (wopt : Byte) :
    DataFitsRecord.Statement (.memwriteU32 dev addr scalar wopt) :=
  ⟨fun _ => Nat.zero_le _, fun _ => rfl⟩

theorem DataFitsRecord.motorread (dev mask cmode : Byte) :
    DataFitsRecord.Statement (.motorread dev mask cmode) :=
  ⟨fun _ => Nat.zero_le _, fun _ => rfl⟩

theorem DataFitsRecord.motorwriteSw (dev tsw mask cmode : Byte) :
    DataFitsRecord.Statement (.motorwriteSw dev tsw mask cmode) :=
  ⟨fun _ => Nat.zero_le _, fun _ => rfl⟩

theorem DataFitsRecord.motorwriteT (dev n : Byte) (t0 t1 t2 : HalfWord) (mask cmode : Byte) :
    DataFitsRecord.Statement (.motorwriteT dev n t0 t1 t2 mask cmode) :=
  ⟨fun _ => Nat.zero_le _, fun _ => rfl⟩

theorem DataFitsRecord.motorwriteT1 (dev : Byte) (t0 : HalfWord) (mask cmode : Byte) :
    DataFitsRecord.Statement (.motorwriteT1 dev t0 mask cmode) :=
  ⟨fun _ => Nat.zero_le _, fun _ => rfl⟩

theorem DataFitsRecord.motorwriteT2 (dev : Byte) (t0 t1 : HalfWord) (mask cmode : Byte) :
    DataFitsRecord.Statement (.motorwriteT2 dev t0 t1 mask cmode) :=
  ⟨fun _ => Nat.zero_le _, fun _ => rfl⟩

theorem DataFitsRecord.motorwriteT3 (dev : Byte) (t0 t1 t2 : HalfWord) (mask cmode : Byte) :
    DataFitsRecord.Statement (.motorwriteT3 dev t0 t1 t2 mask cmode) :=
  ⟨fun _ => Nat.zero_le _, fun _ => rfl⟩

theorem DataFitsRecord.xferFixed (data : List Byte) (rxlen : Byte) :
    DataFitsRecord.Statement (.xferFixed data rxlen) :=
  decide_eq_true_iff

theorem DataFitsRecord.xferVar (data : List Byte) :
    DataFitsRecord.Statement (.xferVar data) :=
  decide_eq_true_iff

theorem DataFitsRecord.xferSend (data : List Byte) :
    DataFitsRecord.Statement (.xferSend data) :=
  decide_eq_true_iff

end Sys2Proof.Laws
end

