-- ==== Sys2Proof/Tests/Slice0.lean ====
section
/-! SUPPORT. The model's own tests: well-formedness refusals, words written out from the spec's encodings, at most two
small steps an instruction, and for each obligation with hypotheses a concrete state and operands that meet them. The
expected results are the vectors of 95_test_vectors.md (named at each test), under its test instantiation TI. -/

namespace Sys2Proof.Tests

-- one theorem at a time: side by side they need more memory than the build has
set_option Elab.async false

open Sys2Proof Sys2Proof.Machine Sys2Proof.Claims

/-! ### Well-formedness -/

/-- One byte more than a request record carries (R23). -/
def tooLong : List Byte := List.replicate 257 0

theorem test_illformed_request : Request.wf { op := 0x30, data := tooLong } = false := by decide +kernel
theorem test_illformed_encode : Instr.wf (.encode 1 3 0 tooLong) = false := by decide +kernel
theorem test_illformed_validate : Instr.wf (.validate tooLong 3 0xFE) = false := by decide +kernel
theorem test_illformed_memwrite : Instr.wf (.memwrite 1 0 tooLong 0) = false := by decide +kernel
theorem test_illformed_xferFixed : Instr.wf (.xferFixed tooLong 0) = false := by decide +kernel
theorem test_illformed_xferVar : Instr.wf (.xferVar tooLong) = false := by decide +kernel
theorem test_illformed_xferSend : Instr.wf (.xferSend tooLong) = false := by decide +kernel
theorem test_wellformed_longest : Instr.wf (.xferSend (List.replicate 256 0)) = true := by decide +kernel

/-! ### Decoding: the op codes of R121, every field of the request distinct -/

/-- A request with a different value in every field. -/
def full (op : Byte) : Request :=
  { op := op, dev := 0x01, addr := 0x0203, size := 0x04, data := [0x05, 0x06], scalar := 0x0708090A, wopt := 0x0B,
    mask := 0x0C, cmode := 0x0D, tsw := 0x0E, n := 0x0F, t0 := 0x1011, t1 := 0x1213, t2 := 0x1415, cmd := 0x16,
    opt := 0x17, hdr := 0x18, rxlen := 0x19 }

theorem test_decode_encode : decode (full 0x01) = .ok (.encode 0x01 0x16 0x17 [0x05, 0x06]) := rfl
theorem test_decode_validate : decode (full 0x02) = .ok (.validate [0x05, 0x06] 0x16 0x18) := rfl
theorem test_decode_fieldcount : decode (full 0x03) = .ok (.fieldcount 0x0C) := rfl
theorem test_decode_memread : decode (full 0x10) = .ok (.memread 0x01 0x0203 0x04) := rfl
theorem test_decode_memreadU8 : decode (full 0x11) = .ok (.memreadU8 0x01 0x0203) := rfl
theorem test_decode_memreadI16 : decode (full 0x12) = .ok (.memreadI16 0x01 0x0203) := rfl
theorem test_decode_memreadU16 : decode (full 0x13) = .ok (.memreadU16 0x01 0x0203) := rfl
theorem test_decode_memreadI32 : decode (full 0x14) = .ok (.memreadI32 0x01 0x0203) := rfl
theorem test_decode_memreadU32 : decode (full 0x15) = .ok (.memreadU32 0x01 0x0203) := rfl
theorem test_decode_memwrite : decode (full 0x18) = .ok (.memwrite 0x01 0x0203 [0x05, 0x06] 0x0B) := rfl
theorem test_decode_memwriteU8 : decode (full 0x19) = .ok (.memwriteU8 0x01 0x0203 0x0708090A 0x0B) := rfl
theorem test_decode_memwriteI16 : decode (full 0x1A) = .ok (.memwriteI16 0x01 0x0203 0x0708090A 0x0B) := rfl
theorem test_decode_memwriteU16 : decode (full 0x1B) = .ok (.memwriteU16 0x01 0x0203 0x0708090A 0x0B) := rfl
theorem test_decode_memwriteI32 : decode (full 0x1C) = .ok (.memwriteI32 0x01 0x0203 0x0708090A 0x0B) := rfl
theorem test_decode_memwriteU32 : decode (full 0x1D) = .ok (.memwriteU32 0x01 0x0203 0x0708090A 0x0B) := rfl
theorem test_decode_motorread : decode (full 0x20) = .ok (.motorread 0x01 0x0C 0x0D) := rfl
theorem test_decode_motorwriteSw : decode (full 0x21) = .ok (.motorwriteSw 0x01 0x0E 0x0C 0x0D) := rfl
theorem test_decode_motorwriteT :
    decode (full 0x22) = .ok (.motorwriteT 0x01 0x0F 0x1011 0x1213 0x1415 0x0C 0x0D) := rfl
theorem test_decode_motorwriteT1 : decode (full 0x23) = .ok (.motorwriteT1 0x01 0x1011 0x0C 0x0D) := rfl
theorem test_decode_motorwriteT2 : decode (full 0x24) = .ok (.motorwriteT2 0x01 0x1011 0x1213 0x0C 0x0D) := rfl
theorem test_decode_motorwriteT3 :
    decode (full 0x25) = .ok (.motorwriteT3 0x01 0x1011 0x1213 0x1415 0x0C 0x0D) := rfl
theorem test_decode_xferFixed : decode (full 0x30) = .ok (.xferFixed [0x05, 0x06] 0x19) := rfl
theorem test_decode_xferVar : decode (full 0x31) = .ok (.xferVar [0x05, 0x06]) := rfl
theorem test_decode_xferSend : decode (full 0x32) = .ok (.xferSend [0x05, 0x06]) := rfl

/-- Reserved codes are rejected by name (vectors R1 and R2, and a code between two families). -/
theorem test_decode_reserved :
    decode (full 0x00) = .error (.reservedOp 0x00) ∧ decode (full 0x04) = .error (.reservedOp 0x04) ∧
      decode (full 0x16) = .error (.reservedOp 0x16) ∧ decode (full 0x26) = .error (.reservedOp 0x26) ∧
      decode (full 0x33) = .error (.reservedOp 0x33) ∧ decode (full 0xFF) = .error (.reservedOp 0xFF) :=
  ⟨rfl, rfl, rfl, rfl, rfl, rfl⟩

/-! ### One step an instruction, under TI -/

/-- `CRC16_TI`: the sum of the bytes modulo 2^16. -/
def byteSum : List Byte → HalfWord
  | [] => 0
  | b :: bs => b.setWidth 16 + byteSum bs

/-- The test instantiation (95_test_vectors.md section 0). NOT the hardware's configuration. -/
def TI : Config := { crc16 := byteSum }

/-- A buffer that holds these bytes. -/
def bufferOf (i : Nat) : List Byte → Memory
  | [] => []
  | b :: bs => (i, b) :: bufferOf (i + 1) bs

/-- After reset, with a request at the host port. -/
def asked : State := { State.reset with port := .request 0 { op := 0x10 } }

/-- The same while another operation holds the transport. -/
def askedBusy : State := { asked with block := { asked.block with busy := true } }

/-- A CHECK step due, with the transfer's result. -/
def checkDue (ok : Bool) (rx : List Byte) : State :=
  { State.reset with
    port := .resume 0
    block := { State.reset.block with
      busy := true, seq := .check, rxbuf := bufferOf 0 rx, rxcnt := rx.length, tres := { ok := ok, rxLen := rx.length } } }

/-- The last response delivered. -/
def answer (o : Host.Outcome State Fault Refusal) : Option Response :=
  match o with
  | .next s => s.outbox.getLast?.map (·.resp)
  | .fault _ => none
  | .refused _ => none

/-- What an accepted operation sends, and how many bytes it first waits for. -/
def sends (o : Host.Outcome State Fault Refusal) : Option (List Byte × Nat) :=
  match o with
  | .next s => if s.block.busy then some (s.block.txbuf.map (·.2), s.block.rxtgt) else none
  | .fault _ => none
  | .refused _ => none

/-- E1. -/
theorem test_encode : encodeResponse TI 1 0x03 0 [0x00, 0x00, 0x04] =
    { status := 0x0000
      outs := { data := some [0xFE, 0xFE, 0x01, 0x0B, 0x03, 0x00, 0x00, 0x00, 0x04, 0x0F, 0x02] } } := by decide

/-- E4. -/
theorem test_encode_too_long : (encodeResponse TI 1 0x07 0 (List.replicate 248 0)).status = 0x0400 := by
  decide +kernel

/-- V5 and V6: bit 7 of the command byte is masked off, and covered by the checksum. -/
theorem test_validate_bit7 :
    (validateResponse TI [0xFE, 0xFE, 0x01, 0x08, 0x83, 0x00, 0x88, 0x02] 0x03 0xFE).status = 0x0000 ∧
      (validateResponse TI [0xFE, 0xFE, 0x01, 0x08, 0x83, 0x00, 0x08, 0x02] 0x03 0xFE).status = 0x0200 := by decide

/-- V8, V9 and V11. -/
theorem test_validate_order :
    (validateResponse TI [0xFE, 0xFE, 0x01, 0x08, 0x04, 0x00, 0x00, 0x00] 0x03 0xFE).status = 0x1000 ∧
      (validateResponse TI [0xFE, 0xFE, 0x01, 0x08, 0x03, 0x00, 0x08] 0x03 0xFE).status = 0x1000 ∧
      (validateResponse TI [0xFE, 0xFE, 0x01, 0x0A, 0x03, 0x20, 0x34, 0x12, 0x70, 0x02] 0x03 0xFE).status =
        0x0020 := by decide

/-- F1. -/
theorem test_fieldcount : answer (exec (.fieldcount 0xB1) askedBusy) =
    some { status := 0x0000, outs := { count := some 8 } } := by decide

/-- M5: the longest read. -/
theorem test_memread_sends : sends (transact TI (memread TI 1 0x0010 243) asked) =
    some ([0xFE, 0xFE, 0x01, 0x0B, 0x03, 0x00, 0x10, 0x00, 0xF3, 0x0E, 0x03], 251) := by decide

/-- M2. -/
theorem test_memread_answer : answer (transact TI (memread TI 1 0x0010 2)
      (checkDue true [0xFE, 0xFE, 0x01, 0x0A, 0x03, 0x20, 0x34, 0x12, 0x70, 0x02])) =
    some { status := 0x0020, outs := { data := some [0x34, 0x12] } } := by decide

/-- TR1 and TR6. -/
theorem test_memreadU8 :
    answer (transact TI (memreadU8 TI 1 0x20) (checkDue true [0xFE, 0xFE, 0x01, 0x09, 0x03, 0x00, 0x7A, 0x83, 0x02])) =
        some { status := 0x0000, outs := { value := some 0x0000007A } } ∧
      answer (transact TI (memreadU8 TI 1 0x20) (checkDue false [])) =
        some { status := 0x0100, outs := { value := some 0x000000FF } } := by decide

/-- TR2 and TR11: zero-extended, and the sentinel after a checksum error. -/
theorem test_memreadI16 :
    answer (transact TI (memreadI16 TI 1 0x22)
        (checkDue true [0xFE, 0xFE, 0x01, 0x0A, 0x03, 0x00, 0x38, 0xFF, 0x41, 0x03])) =
        some { status := 0x0000, outs := { value := some 0x0000FF38 } } ∧
      answer (transact TI (memreadI16 TI 1 0x22)
        (checkDue true [0xFE, 0xFE, 0x01, 0x0A, 0x03, 0x00, 0x38, 0xFF, 0x42, 0x03])) =
        some { status := 0x0200, outs := { value := some 0x00007FFF } } := by decide

/-- TR3. -/
theorem test_memreadU16 : answer (transact TI (memreadU16 TI 1 0x22)
      (checkDue true [0xFE, 0xFE, 0x01, 0x0A, 0x03, 0x00, 0x38, 0xFF, 0x41, 0x03])) =
    some { status := 0x0000, outs := { value := some 0x0000FF38 } } := by decide

/-- TR4 (request and answer). -/
theorem test_memreadI32 :
    sends (transact TI (memreadI32 TI 1 0x24) asked) =
        some ([0xFE, 0xFE, 0x01, 0x0B, 0x03, 0x00, 0x24, 0x00, 0x04, 0x33, 0x02], 12) ∧
      answer (transact TI (memreadI32 TI 1 0x24)
        (checkDue true [0xFE, 0xFE, 0x01, 0x0C, 0x03, 0x00, 0x78, 0x56, 0x34, 0x12, 0x20, 0x03])) =
        some { status := 0x0000, outs := { value := some 0x12345678 } } := by decide

/-- TR5: no narrowing to 16 bits (90_conflicts.md C11). -/
theorem test_memreadU32 : answer (transact TI (memreadU32 TI 1 0x24)
      (checkDue true [0xFE, 0xFE, 0x01, 0x0C, 0x03, 0x00, 0x00, 0x00, 0x00, 0x80, 0x8C, 0x02])) =
    some { status := 0x0000, outs := { value := some 0x80000000 } } := by decide

/-- W1. -/
theorem test_memwrite_sends : sends (transact TI (memwrite TI 1 0 [1, 2, 3, 4] 0) asked) =
    some ([0xFE, 0xFE, 0x01, 0x0E, 0x04, 0x00, 0x00, 0x00, 0x01, 0x02, 0x03, 0x04, 0x19, 0x02], 8) := by decide

/-- W5 and W2. -/
theorem test_memwrite_answer :
    answer (transact TI (memwrite TI 1 0 [1, 2, 3, 4] 0)
        (checkDue true [0xFE, 0xFE, 0x01, 0x08, 0x04, 0x01, 0x0A, 0x02])) = some { status := 0x0001, outs := {} } ∧
      answer (transact TI (memwrite TI 1 0 [] 0) askedBusy) = some { status := 0x0400, outs := {} } := by decide

/-- W11: the bits of the scalar above the width are ignored. -/
theorem test_memwriteU8 : sends (transact TI (memwriteU8 TI 1 0x30 0x15A 0) asked) =
    some ([0xFE, 0xFE, 0x01, 0x0B, 0x04, 0x00, 0x30, 0x00, 0x5A, 0x96, 0x02], 8) := by decide

/-- W9: the write option is in byte 5. -/
theorem test_memwriteI16 : sends (transact TI (memwriteI16 TI 1 0x30 0xFF38 1) asked) =
    some ([0xFE, 0xFE, 0x01, 0x0C, 0x04, 0x01, 0x30, 0x00, 0x38, 0xFF, 0x75, 0x03], 8) := by decide

/-- W9's bytes: R171 sends what R170 does. -/
theorem test_memwriteU16 : sends (transact TI (memwriteU16 TI 1 0x30 0xFF38 1) asked) =
    some ([0xFE, 0xFE, 0x01, 0x0C, 0x04, 0x01, 0x30, 0x00, 0x38, 0xFF, 0x75, 0x03], 8) := by decide

/-- R172's example: 0x12345678 is sent as [78, 56, 34, 12]. -/
theorem test_memwriteI32 : (sends (transact TI (memwriteI32 TI 1 0x40 0x12345678 0) asked)).map (·.1.take 12) =
    some [0xFE, 0xFE, 0x01, 0x0E, 0x04, 0x00, 0x40, 0x00, 0x78, 0x56, 0x34, 0x12] := by decide

/-- W10. -/
theorem test_memwriteU32 : sends (transact TI (memwriteU32 TI 1 0x40 0xFFFFFFFF 0) asked) =
    some ([0xFE, 0xFE, 0x01, 0x0E, 0x04, 0x00, 0x40, 0x00, 0xFF, 0xFF, 0xFF, 0xFF, 0x4B, 0x06], 8) := by decide

/-- The motion sample with these slots, all others at the sentinel. -/
def slots (position speed current voltage : Word) : Sample :=
  { sentinelSample with position := position, speed := speed, current := current, voltage := voltage }

/-- MO1 (an unsigned position and a negative current) and MO2 (the position-control bit). -/
theorem test_motorread_fields :
    answer (transact TI (motorread TI 1 0x05 0)
        (checkDue true [0xFE, 0xFE, 0x01, 0x0D, 0x05, 0x00, 0x01, 0x10, 0xFF, 0xF6, 0xFF, 0x14, 0x05])) =
        some { status := 0x0000
               outs := { sample := some (slots 65296 0x7FFF (-10) 0x7FFF), tswState := some 0x01 } } ∧
      answer (transact TI (motorread TI 1 0x01 0x01)
        (checkDue true [0xFE, 0xFE, 0x01, 0x0B, 0x05, 0x00, 0x01, 0x10, 0xFF, 0x1D, 0x03])) =
        some { status := 0x0000
               outs := { sample := some (slots (-240) 0x7FFF 0x7FFF 0x7FFF), tswState := some 0x01 } } := by decide

/-- MO5, and MO6 (no torque-switch byte). -/
theorem test_motorread_mismatch :
    answer (transact TI (motorread TI 1 0x05 0)
        (checkDue true [0xFE, 0xFE, 0x01, 0x0B, 0x05, 0x00, 0x01, 0x10, 0x00, 0x1E, 0x02])) =
        some { status := 0x2000, outs := { sample := some sentinelSample, tswState := some 0x01 } } ∧
      answer (transact TI (motorread TI 1 0x05 0) (checkDue true [0xFE, 0xFE, 0x01, 0x08, 0x05, 0x00, 0x0A, 0x02])) =
        some { status := 0x2000, outs := { sample := some sentinelSample, tswState := some 0xFF } } := by decide

/-- MW2 and MW5: two bits set is no state, and the read-back mask is not sent. -/
theorem test_motorwriteSw_request :
    answer (transact TI (motorwriteSw TI 1 0x03 0 0) askedBusy) = some { status := 0x0400, outs := {} } ∧
      sends (transact TI (motorwriteSw TI 1 0x02 0x80 0) asked) =
        some ([0xFE, 0xFE, 0x01, 0x08, 0x06, 0x02, 0x0D, 0x02], 4) := by decide

/-- MW5, MW6 and MW12. -/
theorem test_motorwriteSw_answer :
    answer (transact TI (motorwriteSw TI 1 0x02 0x80 0)
        (checkDue true [0xFE, 0xFE, 0x01, 0x0B, 0x06, 0x00, 0x02, 0xE0, 0x2E, 0x1E, 0x03])) =
        some { status := 0x0000
               outs := { sample := some (slots 0x7FFF 0x7FFF 0x7FFF 12000), tswState := some 0x02 } } ∧
    answer (transact TI (motorwriteSw TI 1 0x08 0x80 0)
        (checkDue true [0xFE, 0xFE, 0x01, 0x09, 0x06, 0x00, 0x08, 0x14, 0x02])) =
        some { status := 0x2000, outs := { sample := some sentinelSample, tswState := some 0x08 } } ∧
      answer (transact TI (motorwriteSw TI 1 0x04 0 0) (checkDue true [0xFE, 0xFE, 0x01, 0x08, 0x05, 0x00, 0x0A, 0x02])) =
        some { status := 0x1000, outs := {} } := by decide

/-- MW7 and MW8: no target, and four. -/
theorem test_motorwriteT_count :
    answer (transact TI (motorwriteT TI 1 0 0 0 0 0 0) asked) = some { status := 0x0400, outs := {} } ∧
      answer (transact TI (motorwriteT TI 1 4 0 0 0 0 0) asked) = some { status := 0x0400, outs := {} } := by decide

/-- MW9 through the general form (R206's example). -/
theorem test_motorwriteT_sends : sends (transact TI (motorwriteT TI 2 2 0x0100 0xFF38 0x5555 0 0) asked) =
    some ([0xFE, 0xFE, 0x02, 0x0C, 0x06, 0x00, 0x00, 0x01, 0x38, 0xFF, 0x48, 0x03], 8) := by decide

/-- MW10. -/
theorem test_motorwriteT1 :
    sends (transact TI (motorwriteT1 TI 3 0xFFFF 0x03 0) asked) =
        some ([0xFE, 0xFE, 0x03, 0x0A, 0x06, 0x03, 0xFF, 0xFF, 0x10, 0x04], 4) ∧
      answer (transact TI (motorwriteT1 TI 3 0xFFFF 0x03 0)
        (checkDue true [0xFE, 0xFE, 0x03, 0x0D, 0x06, 0x00, 0x01, 0x64, 0x00, 0x9C, 0xFF, 0x12, 0x04])) =
        some { status := 0x0000
               outs := { sample := some (slots 100 (-100) 0x7FFF 0x7FFF), tswState := some 0x01 } } := by decide

/-- MW9. -/
theorem test_motorwriteT2 : sends (transact TI (motorwriteT2 TI 2 0x0100 0xFF38 0 0) asked) =
    some ([0xFE, 0xFE, 0x02, 0x0C, 0x06, 0x00, 0x00, 0x01, 0x38, 0xFF, 0x48, 0x03], 8) := by decide

/-- MW11. -/
theorem test_motorwriteT3 :
    sends (transact TI (motorwriteT3 TI 1 1 2 3 0 0) asked) =
        some ([0xFE, 0xFE, 0x01, 0x0E, 0x06, 0x00, 0x01, 0x00, 0x02, 0x00, 0x03, 0x00, 0x17, 0x02], 8) ∧
      answer (transact TI (motorwriteT3 TI 1 1 2 3 0 0)
        (checkDue true [0xFE, 0xFE, 0x01, 0x08, 0x06, 0x00, 0x0B, 0x02])) = some { status := 0x0000, outs := {} } := by
  decide

/-- X10 and X11. -/
theorem test_xferFixed :
    answer (transact TI (xferFixed TI [] 8) asked) =
        some { status := 0x0400, outs := { ok := some false, data := some [], rxLen := some 0 } } ∧
      answer (transact TI (xferFixed TI [0x55] 4) (checkDue false [])) =
        some { status := 0x0100, outs := { ok := some false, data := some [], rxLen := some 0 } } := by decide

/-- X3 and X6. -/
theorem test_xferVar :
    answer (transact TI (xferVar TI [0x55])
        (checkDue true [0xFE, 0xFE, 0x01, 0x09, 0x05, 0x00, 0x02, 0x0D, 0x02])) =
        some { status := 0x0000
               outs := { ok := some true
                         data := some [0xFE, 0xFE, 0x01, 0x09, 0x05, 0x00, 0x02, 0x0D, 0x02], rxLen := some 9 } } ∧
      answer (transact TI (xferVar TI [0x55]) (checkDue false [0x00, 0x00, 0x00, 0x07])) =
        some { status := 0x0100
               outs := { ok := some false, data := some [0x00, 0x00, 0x00, 0x07], rxLen := some 4 } } := by decide

/-- X8 and B3. -/
theorem test_xferSend :
    answer (transact TI (xferSend TI [0x55]) (checkDue false [])) =
        some { status := 0x0800, outs := { ok := some false } } ∧
      answer (transact TI (xferSend TI [0x55]) askedBusy) =
        some { status := 0x0800, outs := { ok := some false } } := by decide

/-- B1 and B2: a busy rejection, and the argument check before it. -/
theorem test_busy_rejection :
    answer (transact TI (memread TI 1 0 2) askedBusy) =
        some { status := 0x0100, outs := { data := some [0xFF, 0xFF] } } ∧
      answer (transact TI (memread TI 1 0 0) askedBusy) = some { status := 0x0400, outs := { data := some [] } } := by
  decide

/-- A buffer read past the bytes received is a fault (R29, I7). -/
theorem test_invalid_byte : memRead (bufferOf 0 [0x01, 0x02]) 1 0 2 = .error .invalidByte := rfl

/-- Writing keeps the canonical form, and a byte has one home. -/
theorem test_store_canonical :
    Memory.store [(1, 0x0A), (3, 0x0B)] 2 0x0C = [(1, 0x0A), (2, 0x0C), (3, 0x0B)] ∧
      Memory.store [(1, 0x0A)] 1 0x0C = [(1, 0x0C)] := by decide

/-- The first opcode-table row is what the very next step runs, from reset. -/
theorem test_withFetchWord : step (State.reset.withFetchWord 8 0x03) =
    .next { State.reset with
      port := .request 0 { op := 0x03 }
      outbox := [{ requester := 0, resp := { status := 0x0000, outs := { count := some 0 } } }] } := by rfl

/-! ### Witnesses: for each obligation with hypotheses, a state and operands that meet them -/

/-- The three kinds of state a `FollowsRule` statement speaks of: a request at the port of an idle block, the same at a
busy block, and a CHECK step due after a transfer of 255 bytes, of none, and of a failed transfer. -/
def RuleStates : Prop :=
  (asked.port = .request 0 { op := 0x10 } ∧ asked.block.busy = false) ∧
    (askedBusy.port = .request 0 { op := 0x10 } ∧ askedBusy.block.busy = true) ∧
    Received (checkDue true (List.replicate 255 0x55)) 0 true (List.replicate 255 0x55) ∧
    Received (checkDue true []) 0 true [] ∧ Received (checkDue false [0xFE]) 0 false [0xFE]

theorem bufferOf_holds (i : Nat) (xs : List Byte) (a : Nat) (ha : a < xs.length) :
    (bufferOf i xs).byteAt? (i + a) = xs[a]? := by
  induction xs generalizing i a with
  | nil => exact absurd ha (Nat.not_lt_zero a)
  | cons x xs ih =>
    cases a with
    | zero => simp [bufferOf, Memory.byteAt?]
    | succ a =>
      rw [bufferOf, Memory.byteAt?, if_neg (by omega), show i + (a + 1) = i + 1 + a by omega,
        ih (i + 1) a (by simpa using ha)]
      simp

theorem received_checkDue (ok : Bool) (rx : List Byte) : Received (checkDue ok rx) 0 ok rx :=
  ⟨rfl, rfl, Nat.le_refl _, fun a ha => by have h := bufferOf_holds 0 rx a ha; rwa [Nat.zero_add] at h⟩

theorem witness_RuleStates : RuleStates :=
  ⟨⟨rfl, rfl⟩, ⟨rfl, rfl⟩, received_checkDue _ _, received_checkDue _ _, received_checkDue _ _⟩

theorem witness_EncodeAnswersTheFrame :
    asked.port = .request 0 { op := 0x10 } ∧ (List.replicate 247 (0 : Byte)).length ≤ 247 ∧
      247 < (List.replicate 248 (0 : Byte)).length := ⟨rfl, by decide +kernel, by decide +kernel⟩

theorem witness_ValidateReportsTheFirstFailingCheck :
    asked.port = .request 0 { op := 0x10 } ∧ (List.replicate 7 (0xFE : Byte)).length < 8 := ⟨rfl, by decide +kernel⟩

theorem witness_ValidateUndoesEncode :
    (0x7F : Byte) < 0x80 ∧ (List.replicate 247 (0 : Byte)).length ≤ 247 := ⟨by decide, by decide +kernel⟩

/-- The byte sum detects every single-bit error (93_implementation_defined.md G1). -/
theorem TI_detects : DetectsSingleBit TI := by
  intro xs j k hj hk
  show byteSum (flipBit xs j k) ≠ byteSum xs
  induction xs generalizing j with
  | nil => exact absurd hj (Nat.not_lt_zero j)
  | cons x xs ih =>
    cases j with
    | zero =>
      have hflip : ∀ (k : Fin 8) (x : Byte), (x ^^^ (1#8 <<< k.val)).setWidth 16 ≠ x.setWidth 16 := by decide +kernel
      intro h
      exact hflip ⟨k, hk⟩ x (by simpa [flipBit, byteSum] using h)
    | succ j =>
      intro h
      exact ih j (by simpa using hj) (by simpa [flipBit, byteSum] using h)

theorem witness_FlippedBitNeverValidates :
    DetectsSingleBit TI ∧ validate TI [0xFE, 0xFE, 0x01, 0x08, 0x03, 0x00, 0x08, 0x02] 0x03 0xFE = .ok 0x00 ∧
      7 < [0xFE, 0xFE, 0x01, 0x08, 0x03, 0x00, 0x08, (0x02 : Byte)].length ∧ 7 < 8 :=
  ⟨TI_detects, by decide, by decide, by decide⟩

theorem witness_MemreadFollowsItsRule :
    RuleStates ∧ ¬ ((0 : Byte).toNat ≠ 0 ∧ (0 : Byte).toNat < 244) ∧ ¬ ((244 : Byte).toNat ≠ 0 ∧ (244 : Byte).toNat < 244) ∧
      ((1 : Byte).toNat ≠ 0 ∧ (1 : Byte).toNat < 244) ∧ ((243 : Byte).toNat ≠ 0 ∧ (243 : Byte).toNat < 244) :=
  ⟨witness_RuleStates, by decide, by decide, by decide, by decide⟩

theorem witness_TypedReadsFollowTheirRules : RuleStates ∧ True := ⟨witness_RuleStates, trivial⟩

theorem witness_MemwriteFollowsItsRule :
    RuleStates ∧ ¬ (([] : List Byte).length ≠ 0 ∧ ([] : List Byte).length < 245) ∧
      ¬ ((List.replicate 245 (0 : Byte)).length ≠ 0 ∧ (List.replicate 245 (0 : Byte)).length < 245) ∧
      ((List.replicate 244 (0 : Byte)).length ≠ 0 ∧ (List.replicate 244 (0 : Byte)).length < 245) :=
  ⟨witness_RuleStates, by decide +kernel, by decide +kernel, by decide +kernel⟩

theorem witness_TypedWritesFollowTheirRules : RuleStates ∧ True := ⟨witness_RuleStates, trivial⟩

theorem witness_FieldcountDoublesTheSelectedBits : asked.port = .request 0 { op := 0x10 } := rfl

theorem witness_MotorreadFollowsItsRule : RuleStates ∧ True := ⟨witness_RuleStates, trivial⟩

theorem witness_MotorwriteSwitchFollowsItsRule :
    RuleStates ∧ (0x00 : Byte) = 0x00 ∧ (0x80 : Byte) ≠ 0x00 ∧
      ¬ ((0x03 : Byte) = 0x01 ∨ (0x03 : Byte) = 0x02 ∨ (0x03 : Byte) = 0x04 ∨ (0x03 : Byte) = 0x08) ∧
      ((0x08 : Byte) = 0x01 ∨ (0x08 : Byte) = 0x02 ∨ (0x08 : Byte) = 0x04 ∨ (0x08 : Byte) = 0x08) :=
  ⟨witness_RuleStates, by decide, by decide, by decide, by decide⟩

theorem witness_MotorwriteTargetsFollowsItsRule :
    RuleStates ∧ (0x00 : Byte) = 0x00 ∧ (0x01 : Byte) ≠ 0x00 ∧
      ¬ (1 ≤ (0 : Byte).toNat ∧ (0 : Byte).toNat ≤ 3) ∧ ¬ (1 ≤ (4 : Byte).toNat ∧ (4 : Byte).toNat ≤ 3) ∧
      (1 ≤ (1 : Byte).toNat ∧ (1 : Byte).toNat ≤ 3) ∧ (1 ≤ (3 : Byte).toNat ∧ (3 : Byte).toNat ≤ 3) :=
  ⟨witness_RuleStates, by decide, by decide, by decide, by decide, by decide, by decide⟩

theorem witness_TargetEntryPointsFollowTheirRules : RuleStates ∧ (0x00 : Byte) = 0x00 ∧ (0x01 : Byte) ≠ 0x00 :=
  ⟨witness_RuleStates, rfl, by decide⟩

theorem witness_FieldDecodeExtendsBySignRule : Field.speed ≠ .position ∧ Field.speed ≠ .voltage :=
  ⟨by decide, by decide⟩

theorem witness_ReadBackFieldsDecodeInCanonicalOrder : (List.replicate 6 (0 : Byte)).length = 6 := by simp

/-- The lengths a raw transfer refuses and accepts, at their bounds. -/
def RawLengths : Prop :=
  ¬ (([] : List Byte).length ≠ 0 ∧ ([] : List Byte).length ≤ 256) ∧
    ¬ ((List.replicate 257 (0 : Byte)).length ≠ 0 ∧ (List.replicate 257 (0 : Byte)).length ≤ 256) ∧
    ((List.replicate 256 (0 : Byte)).length ≠ 0 ∧ (List.replicate 256 (0 : Byte)).length ≤ 256)

theorem witness_RawLengths : RawLengths := ⟨by decide +kernel, by decide +kernel, by decide +kernel⟩

theorem witness_XferFixedFollowsItsRule : RuleStates ∧ RawLengths := ⟨witness_RuleStates, witness_RawLengths⟩

theorem witness_XferVarFollowsItsRule : RuleStates ∧ RawLengths := ⟨witness_RuleStates, witness_RawLengths⟩

theorem witness_XferSendFollowsItsRule : RuleStates ∧ RawLengths := ⟨witness_RuleStates, witness_RawLengths⟩

theorem command_masked (c : Command) : hw.command c &&& 0x7F = hw.command c := by
  have h : ∀ b : Byte, b < 0x80 → b &&& 0x7F = b := by decide
  exact h _ (hw.command_lt c)

/-- An 8-byte frame validates and is too short for a read-back. -/
theorem witness_SendAndDecodeErrorsHaveTheirOwnOperations :
    (∃ t d, exec (.xferSend [0x55]) askedBusy = .next t ∧ t.outbox = askedBusy.outbox ++ [d] ∧
        errorClassOf d.resp.status = hw.errorCode .send) ∧
      ∃ (s t : State) (d : Delivery), exec (.motorread 1 0 0) s = .next t ∧ t.outbox = s.outbox ++ [d] ∧
        errorClassOf d.resp.status = hw.errorCode .mdec := by
  have hcls : ∀ a b : Byte, errorClassOf (composite a b) = a := fun a b => by
    apply BitVec.eq_of_getLsbD_eq
    intro i hi
    simp only [errorClassOf, composite, BitVec.getLsbD_extractLsb', BitVec.getLsbD_append, hi, decide_true, Bool.true_and]
    rw [if_neg (by omega)]
    congr 1
    omega
  refine ⟨⟨_, _, rfl, rfl, hcls _ _⟩, ?_⟩
  let h : List Byte := [0xFE, 0xFE, 0x01, 0x08, hw.command .motorRead, 0x00]
  let rx : List Byte := h ++ le16 (hw.crc16 h)
  have hv : validate hw rx (hw.command .motorRead) HDR = .ok 0x00 := by
    have hp := validate_parts hw 0xFE 0xFE 0x01 0x08 (hw.command .motorRead) 0x00 []
      ((hw.crc16 h).extractLsb' 0 8) ((hw.crc16 h).extractLsb' 8 8) (hw.command .motorRead) 0xFE
    rw [le16_rejoin, command_masked] at hp
    exact hp.trans (by simp [h])
  refine ⟨checkDue true rx, _, _, rfl, rfl, ?_⟩
  show errorClassOf (motionFinish hw (hw.command .motorRead) 0 0 true rx).status = _
  have hf : motionFinish hw (hw.command .motorRead) 0 0 true rx =
      decodeFailed hw 0x00 { sample := some sentinelSample, tswState := some SENT8 } := by
    unfold motionFinish afterRoundTrip
    rw [if_pos rfl, hv]
    rfl
  rw [hf]
  exact hcls _ _

/-! #### States that meet the invariant -/

/-- A block left by a finished XFER_SEND of one byte. -/
def usedBlock : Block :=
  { Block.reset with tshape := .sendOnly, tres := { ok := true, rxLen := 0 }, txbuf := [(0, 0x55)], txlen := 1 }

/-- The same operation while it sends. -/
def sendingBlock : Block :=
  { usedBlock with
    seq := .xfer, busy := true, tstate := .send, cur := some { requester := 0, req := { op := 0x32, data := [0x55] } } }

/-- The same operation, sent, its CHECK step due. -/
def checkBlock : Block := { sendingBlock with seq := .check, tstate := .idle }

/-- An XFER_FIXED of two bytes that has received one. -/
def receivingBlock : Block :=
  { usedBlock with
    seq := .xfer, busy := true, tstate := .rxFix, tshape := .fixed, rxbuf := [(0, 0xAA)], rxcnt := 1, rxtgt := 2
    cur := some { requester := 0, req := { op := 0x30, data := [0x55], rxlen := 2 } } }

theorem holds_one (x : Byte) : Holds [(0, x)] [x] := by
  intro a ha
  have h : a = 0 := by simpa using ha
  subst h
  rfl

theorem filled_one (x : Byte) : Filled [(0, x)] 1 := by
  intro a ha
  have h : a = 0 := by omega
  subst h
  rfl

theorem filled_none (m : Memory) : Filled m 0 := fun a ha => absurd ha (Nat.not_lt_zero a)

theorem hw_has_requester : 0 < hw.nreq := Nat.succ_pos _

theorem usedBlock_sound : usedBlock.Sound where
  tx_canonical := rfl
  rx_canonical := rfl
  txlen_le := by decide
  rxcnt_le := by decide
  rxtgt_le := by decide
  tres_le := by decide
  tx_filled := filled_one _
  rx_filled := filled_none _
  busy_iff := by decide
  not_build := by decide
  xfer_iff := by decide
  cur_iff := by decide
  carries := fun cur h => by cases h

theorem sendingBlock_sound : sendingBlock.Sound where
  tx_canonical := rfl
  rx_canonical := rfl
  txlen_le := by decide
  rxcnt_le := by decide
  rxtgt_le := by decide
  tres_le := by decide
  tx_filled := filled_one _
  rx_filled := filled_none _
  busy_iff := by decide
  not_build := by decide
  xfer_iff := by decide
  cur_iff := by decide
  carries := fun cur h => by
    cases h
    exact ⟨hw_has_requester, rfl, .xferSend [0x55], xferSend hw [0x55], rfl, rfl, rfl, rfl, holds_one _, rfl, rfl, rfl⟩

theorem checkBlock_sound : checkBlock.Sound where
  tx_canonical := rfl
  rx_canonical := rfl
  txlen_le := by decide
  rxcnt_le := by decide
  rxtgt_le := by decide
  tres_le := by decide
  tx_filled := filled_one _
  rx_filled := filled_none _
  busy_iff := by decide
  not_build := by decide
  xfer_iff := by decide
  cur_iff := by decide
  carries := fun cur h => by
    cases h
    exact ⟨hw_has_requester, rfl, .xferSend [0x55], xferSend hw [0x55], rfl, rfl, rfl, rfl, holds_one _, rfl,
      Nat.le_refl _, fun _ => rfl⟩

theorem receivingBlock_sound : receivingBlock.Sound where
  tx_canonical := rfl
  rx_canonical := rfl
  txlen_le := by decide
  rxcnt_le := by decide
  rxtgt_le := by decide
  tres_le := by decide
  tx_filled := filled_one _
  rx_filled := filled_one _
  busy_iff := by decide
  not_build := by decide
  xfer_iff := by decide
  cur_iff := by decide
  carries := fun cur h => by
    cases h
    exact ⟨hw_has_requester, rfl, .xferFixed [0x55] 2, xferFixed hw [0x55] 2, rfl, rfl, rfl, rfl, holds_one _, rfl,
      rfl, rfl, by decide⟩

/-- A state with this block, and the outside about to do these moves. -/
def having (b : Block) (moves : List Input) : State := { State.reset with block := b, inputs := moves }

/-! #### The host port -/

theorem mayPresent_idle (req : Request) (h : req.data.length ≤ 256) (moves : List Input) :
    MayPresent (having usedBlock moves) 0 req := ⟨hw_has_requester, fun cur hc => (by cases hc), h⟩

theorem witness_StepRunsThePresentedOperation :
    (having usedBlock [.present 0 (full 0x30)]).inputs = [.present 0 (full 0x30)] ∧
      MayPresent (having usedBlock [.present 0 (full 0x30)]) 0 (full 0x30) ∧
      decode (full 0x30) = .ok (.xferFixed [0x05, 0x06] 0x19) :=
  ⟨rfl, mayPresent_idle _ (by decide) _, rfl⟩

theorem witness_ReservedCodeAnswersFormatError :
    MayPresent (having usedBlock [.present 0 (full 0x16)]) 0 (full 0x16) ∧ (full 0x16).op ∉ opcodes ∧
      (full 0x00).op ∉ opcodes ∧ (full 0xFF).op ∉ opcodes :=
  ⟨mayPresent_idle _ (by decide) _, by decide, by decide, by decide⟩

/-- A requester that does not exist, one that waits, and a request that is too long. -/
theorem witness_WaitingRequesterHasNoMove :
    ¬ MayPresent (having usedBlock [.present hw.nreq (full 0x01)]) hw.nreq (full 0x01) ∧
      ¬ MayPresent (having sendingBlock [.present 0 (full 0x01)]) 0 (full 0x01) ∧
      ¬ MayPresent (having usedBlock [.present 0 { op := 0x30, data := tooLong }]) 0 { op := 0x30, data := tooLong } :=
  ⟨fun h => absurd h.1 (Nat.lt_irrefl _), fun h => h.2.1 _ rfl rfl, fun h => absurd h.2.2 (by decide +kernel)⟩

theorem witness_CheckStepResumesTheLatchedOperation :
    checkBlock.seq = .check ∧ checkBlock.tstate = .idle ∧
      checkBlock.cur = some { requester := 0, req := { op := 0x32, data := [0x55] } } ∧
      decode { op := 0x32, data := [0x55] } = .ok (.xferSend [0x55]) ∧
      (having checkBlock [.sequencer]).inputs = [.sequencer] ∧ (having checkBlock []).inputs = [] :=
  ⟨rfl, rfl, rfl, rfl, rfl, rfl⟩

/-- Another requester's operation holds the transport. It needs a second requester, so it is reached where NREQ > 1. -/
theorem witness_BusyBlockIsUntouchedByRequests :
    let b := { sendingBlock with cur := some { requester := 1, req := { op := 0x32, data := [0x55] } } }
    b.busy = true ∧ MayPresent (having b [.present 0 (full 0x30)]) 0 (full 0x30) :=
  ⟨rfl, hw_has_requester, fun cur hc => by cases hc; decide, by decide⟩

theorem witness_RequestIsAnsweredOrTakesTheTransport :
    MayPresent (having usedBlock [.present 0 (full 0x30)]) 0 (full 0x30) ∧
      (List.replicate 256 (0 : Byte)).length ≤ 256 := ⟨mayPresent_idle _ (by decide) _, by decide +kernel⟩

/-! #### The transport -/

/-- A failed and a completed send, of each shape; a fixed receive of no bytes among them. -/
theorem witness_SendCompletionFollowsTheShape :
    (having sendingBlock [.line (.txDone false)]).inputs = [.line (.txDone false)] ∧
      (having sendingBlock [.line (.txDone true)]).inputs = [.line (.txDone true)] ∧
      ∀ shape target, let b := { sendingBlock with tshape := shape, rxtgt := target }
        b.tstate = .send ∧ [(0x55 : Byte)].length = b.txlen ∧ Holds b.txbuf [0x55] :=
  ⟨rfl, rfl, fun _ _ => ⟨rfl, rfl, holds_one _⟩⟩

/-- One byte short of the longest receive, and one that waits for its first byte. -/
theorem witness_FixedReceiveStopsAtItsCount :
    (having { receivingBlock with rxcnt := 255, rxtgt := 256 } [.line (.rxByte 0)]).inputs = [.line (.rxByte 0)] ∧
      (having { receivingBlock with rxcnt := 0, rxtgt := 256 } [.line .rxTimeout]).inputs = [.line .rxTimeout] ∧
      receivingBlock.tstate = .rxFix ∧ 255 < 256 ∧ 0 < 256 ∧ 256 ≤ 256 := ⟨rfl, rfl, rfl, by decide, by decide, by decide⟩

/-- The last byte of the four, which declares the length, and one before it. -/
theorem witness_PrefixReceiveReadsTheDeclaredLength :
    let b := { receivingBlock with tstate := .rxPre, tshape := .var, rxcnt := 3, rxtgt := 4 }
    b.tstate = .rxPre ∧ b.rxcnt < 4 ∧ b.rxtgt = 4 ∧ { b with rxcnt := 0 }.rxcnt < 4 ∧
      (having b [.line (.rxByte 7)]).inputs = [.line (.rxByte 7)] ∧
      (having b [.line (.rxByte 8)]).inputs = [.line (.rxByte 8)] ∧
      (having b [.line .rxTimeout]).inputs = [.line .rxTimeout] :=
  ⟨rfl, by decide, rfl, by decide, rfl, rfl, rfl⟩

theorem witness_RemainderReceiveStopsAtTheDeclaredLength :
    let b := { receivingBlock with tstate := .rxRest, tshape := .var, rxcnt := 254, rxtgt := 255 }
    b.tstate = .rxRest ∧ b.rxcnt < b.rxtgt ∧ b.rxtgt ≤ 256 ∧
      (having b [.line (.rxByte 7)]).inputs = [.line (.rxByte 7)] ∧
      (having b [.line .rxTimeout]).inputs = [.line .rxTimeout] := ⟨rfl, by decide, by decide, rfl, rfl⟩

theorem witness_StrayBytesAreDropped :
    (having usedBlock [.line (.rxByte 0x03)]).block.tstate = .idle ∧
      (having sendingBlock [.line (.rxByte 0x03)]).block.tstate = .send ∧
      { receivingBlock with rxcnt := 2 }.rxcnt = receivingBlock.rxtgt := ⟨rfl, rfl, rfl⟩

theorem witness_QuietOutsideLetsTheLineDraw :
    (having sendingBlock []).inputs = [] ∧ sendingBlock.tstate = .send ∧ receivingBlock.tstate = .rxFix ∧
      receivingBlock.rxcnt < receivingBlock.rxtgt ∧ usedBlock.tstate = .idle ∧ usedBlock.seq = .idle :=
  ⟨rfl, rfl, rfl, by decide, rfl, rfl⟩

/-- A byte received, an operation accepted, a frame sent. -/
theorem witness_BuffersAndLineChangeOnlyInTheirStates :
    ((having receivingBlock [.line (.rxByte 0x03)]).Sound ∧
        ∃ t, step (having receivingBlock [.line (.rxByte 0x03)]) = .next t ∧ t.block.rxbuf ≠ receivingBlock.rxbuf) ∧
      ((having usedBlock [.present 0 (full 0x30)]).Sound ∧
        ∃ t, step (having usedBlock [.present 0 (full 0x30)]) = .next t ∧ t.block.txbuf ≠ usedBlock.txbuf) ∧
      ((having sendingBlock [.line (.txDone true)]).Sound ∧
        ∃ t, step (having sendingBlock [.line (.txDone true)]) = .next t ∧ t.line ≠ []) :=
  ⟨⟨receivingBlock_sound, _, rfl, by decide⟩, ⟨usedBlock_sound, _, rfl, by decide⟩,
    ⟨sendingBlock_sound, _, rfl, by decide⟩⟩

theorem witness_ResetAbortsWithoutResponse :
    (having sendingBlock [.reset 0]).inputs = [.reset 0] ∧ [(0x55 : Byte)].length = sendingBlock.txlen ∧
      Holds sendingBlock.txbuf [0x55] := ⟨rfl, rfl, holds_one _⟩

/-! #### Whole-machine statements -/

theorem witness_StepKeepsSound :
    (having receivingBlock [.line (.rxByte 0x03)]).Sound ∧
      ∃ t, step (having receivingBlock [.line (.rxByte 0x03)]) = .next t := ⟨receivingBlock_sound, _, rfl⟩

theorem witness_SoundStepNeverStops : (having checkBlock []).Sound := checkBlock_sound

theorem witness_InvalidByteIsAFault : 255 < 255 + 1 ∧ 0 < 1 ∧ 0 < 0 + 1 := by decide

theorem witness_AcceptedOperationFinishes :
    (having sendingBlock []).Sound ∧ (having sendingBlock []).inputs = [] ∧
      sendingBlock.cur = some { requester := 0, req := { op := 0x32, data := [0x55] } } :=
  ⟨sendingBlock_sound, rfl, rfl⟩

theorem witness_OperationKeepsTheTransportUntilItEnds :
    (having checkBlock [.sequencer]).Sound ∧
      checkBlock.cur = some { requester := 0, req := { op := 0x32, data := [0x55] } } ∧
      ∃ t, step (having checkBlock [.sequencer]) = .next t := ⟨checkBlock_sound, rfl, _, rfl⟩

theorem witness_DeliveredStatusNamesOneClass : ∃ t, step (having checkBlock [.sequencer]) = .next t ∧ t.outbox ≠ [] :=
  ⟨_, rfl, List.cons_ne_nil _ _⟩

theorem witness_LineCarriesTheLatchedRequest :
    (having sendingBlock [.line (.txDone true)]).Sound ∧
      ∃ t, step (having sendingBlock [.line (.txDone true)]) = .next t ∧ t.line ≠ [] :=
  ⟨sendingBlock_sound, _, rfl, by decide⟩

/-- Two idle blocks that differ in everything a finished operation leaves. -/
theorem witness_ScratchIsNeverRead :
    let b := { usedBlock with tshape := .var, tres := { ok := false, rxLen := 4 }, txbuf := [(0, 0x77)] }
    b.Sound ∧ usedBlock.Sound ∧ b ≠ usedBlock ∧ SameOutside (having b []) (having usedBlock []) ∧ LiveEq b usedBlock :=
  ⟨{ usedBlock_sound with tx_filled := filled_one _, tres_le := by decide, carries := fun cur h => by cases h },
    usedBlock_sound, by decide, ⟨rfl, rfl, rfl, rfl⟩, rfl, rfl, rfl, rfl, fun h => by cases h⟩

theorem witness_MemreadDeliversTheAnsweredPayload (rest : List Input) (addr : HalfWord) :
    let payload := List.replicate 243 (0x5A : Byte)
    let s := having usedBlock (.present 0 (encode (.memread 1 addr 243)) ::
      (exchange (frame hw 1 (hw.command .memRead) 0 payload) ++ .sequencer :: rest))
    s.Sound ∧ s.block.busy = false ∧ 0 < hw.nreq ∧ payload.length = (243 : Byte).toNat ∧
      1 ≤ (243 : Byte).toNat ∧ (243 : Byte).toNat ≤ 243 ∧
      s.inputs = .present 0 (encode (.memread 1 addr 243)) ::
        (exchange (frame hw 1 (hw.command .memRead) 0 payload) ++ .sequencer :: rest) :=
  ⟨usedBlock_sound, rfl, hw_has_requester, by decide +kernel, by decide, by decide, rfl⟩

theorem witness_MotorreadDeliversTheSelectedFields (moves : List Input) :
    (having usedBlock moves).Sound ∧ (having usedBlock moves).block.busy = false ∧ 0 < hw.nreq ∧
      (having usedBlock moves).inputs = moves := ⟨usedBlock_sound, rfl, hw_has_requester, rfl⟩

/-- Three bytes (X4's kind), then the longest declared length, 254 bytes of it received (X5's kind). -/
theorem witness_VariableReceiveShortfallDeliversThePrefix (moves : List Input) :
    let long := [0xFE, 0xFE, 0x01, (0xFF : Byte)] ++ List.replicate 250 0
    (having usedBlock moves).Sound ∧ (having usedBlock moves).block.busy = false ∧ 0 < hw.nreq ∧
      1 ≤ [(0x55 : Byte)].length ∧ [(0x55 : Byte)].length ≤ 256 ∧ [0xFE, 0xFE, (0x01 : Byte)].length < 4 ∧
      long.length < 255 ∧ 4 ≤ long.length ∧ 8 ≤ (byteOf long 3).toNat ∧ long.length < (byteOf long 3).toNat :=
  ⟨usedBlock_sound, rfl, hw_has_requester, by decide, by decide, by decide, by decide +kernel, by decide +kernel,
    by decide, by decide +kernel⟩

end Sys2Proof.Tests
end

section
/-! SUPPORT. What the invariant gives a block in a transfer or before its CHECK step, and what a buffer read depends on. -/

namespace Sys2Proof.Machine

/-- MemRead sees nothing of a buffer but its valid bytes (R29). -/
theorem memRead_congr {m m' : Memory} {valid : Nat} (h : ∀ a, a < valid → m.byteAt? a = m'.byteAt? a) (i n : Nat) :
    memRead m valid i n = memRead m' valid i n := by
  induction n generalizing i with
  | zero => rfl
  | succ n ih =>
    by_cases hi : i < valid
    · simp only [memRead, if_pos hi, h i hi, ih]
    · simp only [memRead, if_neg hi]

/-- A byte stored at the end of the valid bytes makes one more valid (R233). -/
theorem Filled.store {m : Memory} {n : Nat} (h : Filled m n) (x : Byte) : Filled (m.store n x) (n + 1) := by
  intro a ha
  rw [byteAt?_store]
  split
  · rfl
  · exact h a (by omega)

/-- A transfer in progress holds the transport (R24, R25). -/
theorem Block.Sound.busy_of_transfer {b : Block} (hs : b.Sound) (h : b.tstate ≠ .idle) : b.busy = true :=
  hs.busy_iff.mpr (by rw [hs.xfer_iff.mpr h]; decide)

/-- An operation whose CHECK step is due holds the transport (R24, R25). -/
theorem Block.Sound.busy_of_check {b : Block} (hs : b.Sound) (h : b.seq = .check) : b.busy = true :=
  hs.busy_iff.mpr (by rw [h]; decide)

/-- A busy block has a transport operation in CUR (R25). -/
theorem Block.Sound.current_of_busy {b : Block} (hs : b.Sound) (h : b.busy = true) :
    ∃ cur i op, b.cur = some cur ∧ decode cur.req = .ok i ∧ transactionOf Config.hw i = some op ∧ Phase op b := by
  have hne : b.cur ≠ none := fun hn => by simpa [h] using hs.cur_iff.mp hn
  obtain ⟨cur, hcur⟩ := Option.ne_none_iff_exists'.mp hne
  obtain ⟨-, -, i, op, hd, ht, -, -, -, -, hphase⟩ := hs.carries cur hcur
  exact ⟨cur, i, op, hcur, hd, ht, hphase⟩

/-- Where a CHECK step is due, the transfer's whole result stands in RXBUF (R244). -/
theorem Block.Sound.result_of_check {b : Block} (hs : b.Sound) (h : b.seq = .check) :
    ∃ rx, memRead b.rxbuf b.rxcnt 0 b.tres.rxLen = .ok rx := by
  have hidle : b.tstate = .idle := by
    by_contra hne
    simpa [h] using hs.xfer_iff.mpr hne
  obtain ⟨-, -, op, -, -, -, hphase⟩ := hs.current_of_busy (hs.busy_of_check h)
  have hle : b.tres.rxLen ≤ b.rxcnt := by
    rw [Phase, hidle] at hphase
    exact hphase.1
  obtain ⟨rx, hrx, -, -⟩ := memRead_filled (i := 0) (n := b.tres.rxLen) hs.rx_filled (by omega)
  exact ⟨rx, hrx⟩

/-- A frame being sent stands in TXBUF, and so does any first part of it (R232, R303). -/
theorem Block.Sound.sending_readable {b : Block} (hs : b.Sound) {n : Nat} (hn : n ≤ b.txlen) :
    ∃ tx, memRead b.txbuf b.txlen 0 n = .ok tx := by
  obtain ⟨tx, htx, -, -⟩ := memRead_filled (i := 0) (n := n) hs.tx_filled (by omega)
  exact ⟨tx, htx⟩

/-- Only a transfer in progress receives (R233). -/
theorem tstate_of_receiving {b : Block} (h : receiving b = true) : b.tstate ≠ .idle := by
  intro hidle
  simp [receiving, hidle] at h

/-- A block that waits for a byte is short of RXTGT (R233). -/
theorem rxcnt_lt_of_receiving {b : Block} (h : receiving b = true) : b.rxcnt < b.rxtgt := by
  unfold receiving at h
  split at h
  · exact of_decide_eq_true h
  · exact of_decide_eq_true h
  · exact of_decide_eq_true h
  · cases h
  · cases h

/-- A block that waits for a byte has room for it in RXBUF (R61). -/
theorem Block.Sound.rxcnt_lt {b : Block} (hs : b.Sound) (h : receiving b = true) : b.rxcnt < BUFSIZE := by
  have := rxcnt_lt_of_receiving h
  have := hs.rxtgt_le
  unfold MAXFRAME at this
  unfold BUFSIZE
  omega

/-- An operation with no transport gives every state the same answer. -/
theorem exec_pure_answer {i : Instr} (h : transactionOf Config.hw i = none) :
    ∃ resp, ∀ s, exec i s = finish resp s := by
  cases i <;> simp only [transactionOf, reduceCtorEq] at h
  · exact ⟨_, fun _ => rfl⟩
  · exact ⟨_, fun _ => rfl⟩
  · exact ⟨_, fun _ => rfl⟩

/-- A send that ends outside T_SEND is no step of the line (R232). -/
theorem txDone_disabled {s : State} (ok : Bool) (ht : s.block.tstate ≠ .send) : txDone ok s = .next s := by
  unfold txDone
  split
  · contradiction
  · rfl
  · rfl
  · rfl
  · rfl

/-- A reset while a frame is being sent lets its first bytes out (R303). -/
theorem resetStep_send {s : State} {k : Nat} {tx : List Byte} (ht : s.block.tstate = .send)
    (hr : memRead s.block.txbuf s.block.txlen 0 (min k s.block.txlen) = .ok tx) :
    resetStep k s = .next { s with
      block := Block.reset, port := .quiet, line := s.line ++ [{ bytes := tx, how := .cut }] } := by
  simp [resetStep, ht, hr, orFault]

/-- A reset at any other time puts nothing on the line (R303). -/
theorem resetStep_quiet {s : State} (k : Nat) (ht : s.block.tstate ≠ .send) :
    resetStep k s = .next { s with block := Block.reset, port := .quiet } := by
  unfold resetStep
  split
  · contradiction
  · rfl
  · rfl
  · rfl
  · rfl

/-- A CHECK step is the rest of the transport operation in CUR (R244). -/
theorem sequencerStep_check {s : State} {cur : Current} {i : Instr} {op : Transaction} (hseq : s.block.seq = .check)
    (hcur : s.block.cur = some cur) (hd : decode cur.req = .ok i) (ht : transactionOf Config.hw i = some op) :
    sequencerStep s = transact Config.hw op { s with port := .resume cur.requester } := by
  simp only [sequencerStep, hseq, resumeOperation, hcur]
  rw [runRequest_ok hd, exec_transaction ht]

/-- The sequencer's turn with no CHECK due is no step (R244, R252). -/
theorem sequencerStep_idle {s : State} (hseq : s.block.seq ≠ .check) : sequencerStep s = .next s := by
  unfold sequencerStep
  split
  · contradiction
  · rfl
  · rfl
  · rfl

end Sys2Proof.Machine
end

section
/-! PROOF of O47: noninterference (10_state.md rules R18, R29). Two states that agree on the live part of the block are taken
through every move of the machine, one lemma a move. Only the first needs the invariant: what the invariant says of the
live part, the second has in common with the first. -/

namespace Sys2Proof.Noninterference

open Sys2Proof.Machine Sys2Proof.Claims

/-! ### The live part under the block's updates -/

variable {b b' : Block}

theorem liveEq_tstate (h : LiveEq b b') (t : TState) : LiveEq { b with tstate := t } { b' with tstate := t } := by
  obtain ⟨hbusy, hseq, -, hcur, hlive⟩ := h
  exact ⟨hbusy, hseq, rfl, hcur, hlive⟩

theorem liveEq_rxtgt (h : LiveEq b b') (n : Nat) : LiveEq { b with rxtgt := n } { b' with rxtgt := n } := by
  obtain ⟨hbusy, hseq, htst, hcur, hlive⟩ := h
  refine ⟨hbusy, hseq, htst, hcur, fun hb => ?_⟩
  obtain ⟨hshape, hlen, hcnt, -, htx, hrx, htres⟩ := hlive hb
  exact ⟨hshape, hlen, hcnt, rfl, htx, hrx, htres⟩

/-- TRES is written at completion, so it need not agree before (R244). -/
theorem liveEq_completed (h : LiveEq b b') (ok : Bool) (len : Nat) :
    LiveEq (completed b ok len) (completed b' ok len) := by
  obtain ⟨hbusy, -, -, hcur, hlive⟩ := h
  refine ⟨hbusy, rfl, rfl, hcur, fun hb => ?_⟩
  obtain ⟨hshape, hlen, hcnt, htgt, htx, hrx, -⟩ := hlive hb
  exact ⟨hshape, hlen, hcnt, htgt, htx, hrx, fun _ => rfl⟩

/-- The block with `x` received (R233). -/
def withByte (b : Block) (x : Byte) : Block :=
  { b with rxbuf := b.rxbuf.store b.rxcnt x, rxcnt := b.rxcnt + 1 }

theorem liveEq_withByte (h : LiveEq b b') (x : Byte) : LiveEq (withByte b x) (withByte b' x) := by
  obtain ⟨hbusy, hseq, htst, hcur, hlive⟩ := h
  refine ⟨hbusy, hseq, htst, hcur, fun hb => ?_⟩
  obtain ⟨hshape, hlen, hcnt, htgt, htx, hrx, htres⟩ := hlive hb
  refine ⟨hshape, hlen, congrArg (· + 1) hcnt, htgt, htx, fun a ha => ?_, htres⟩
  simp only [withByte, byteAt?_store, ← hcnt]
  split
  · rfl
  · exact hrx a (by simp only [withByte] at ha; omega)

/-- Acceptance and StartTransfer write every live field anew, whatever the two blocks held (R236, R249). -/
theorem liveEq_start {buf buf' : Memory} {tx : List Byte} (cur : Current) (shape : TShape) (m : Nat)
    (hw : memWrite b.txbuf 0 tx = .ok buf) (hw' : memWrite b'.txbuf 0 tx = .ok buf') :
    LiveEq ((b.take cur).start shape tx m buf) ((b'.take cur).start shape tx m buf') := by
  refine ⟨rfl, rfl, rfl, rfl, fun _ => ⟨rfl, rfl, rfl, rfl, fun a ha => ?_, fun a ha => absurd ha (Nat.not_lt_zero a),
    nofun⟩⟩
  have ha : 0 ≤ a ∧ a < 0 + tx.length := ⟨Nat.zero_le a, by simpa using ha⟩
  simp only [start_txbuf, memWrite_byteAt? hw, memWrite_byteAt? hw', if_pos ha]

/-- A block that has given the transport up has no live scratch (R13, R18). -/
theorem liveEq_release (b b' : Block) : LiveEq b.release b'.release := ⟨rfl, rfl, rfl, rfl, nofun⟩

theorem liveEq_refl (b : Block) : LiveEq b b :=
  ⟨rfl, rfl, rfl, rfl, fun _ => ⟨rfl, rfl, rfl, rfl, fun _ _ => rfl, fun _ _ => rfl, fun _ => rfl⟩⟩

/-! ### What the moves read is live -/

theorem mayPresent_congr (h : LiveEq b b') (n r : Nat) (req : Request) :
    mayPresent n r req b = mayPresent n r req b' := by
  obtain ⟨-, -, -, hcur, -⟩ := h
  simp only [mayPresent, outstanding, hcur]

/-- Outside a transfer the counts may differ, but then neither block receives (R233). -/
theorem receiving_congr (hs : b.Sound) (h : LiveEq b b') : receiving b = receiving b' := by
  obtain ⟨-, -, htst, -, hlive⟩ := h
  by_cases hidle : b.tstate = .idle
  · simp only [receiving, ← htst, hidle]
  · obtain ⟨-, -, hcnt, htgt, -⟩ := hlive (hs.busy_of_transfer hidle)
    simp only [receiving, htst, hcnt, htgt]

theorem oracleMove_congr (hs : b.Sound) (h : LiveEq b b') (k : Nat) : oracleMove b k = oracleMove b' k := by
  have hrec := receiving_congr hs h
  obtain ⟨-, -, htst, -, -⟩ := h
  simp only [oracleMove, htst, hrec]

/-! ### Two states, move by move -/

variable {s s' : State}

/-- The outside cannot tell the two states apart, and their blocks agree on what is live. -/
def Agree (s s' : State) : Prop := SameOutside s s' ∧ LiveEq s.block s'.block

theorem Agree.busy : Agree s s' → s.block.busy = s'.block.busy
  | ⟨_, hbusy, _⟩ => hbusy

theorem Agree.seq : Agree s s' → s.block.seq = s'.block.seq
  | ⟨_, _, hseq, _⟩ => hseq

theorem Agree.tstate : Agree s s' → s.block.tstate = s'.block.tstate
  | ⟨_, _, _, htst, _⟩ => htst

theorem Agree.cur : Agree s s' → s.block.cur = s'.block.cur
  | ⟨_, _, _, _, hcur, _⟩ => hcur

/-- While an operation is in progress its shape and counts are live, and so are the valid bytes of the buffers. -/
theorem Agree.transfer (h : Agree s s') (hb : s.block.busy = true) :
    s.block.tshape = s'.block.tshape ∧ s.block.txlen = s'.block.txlen ∧ s.block.rxcnt = s'.block.rxcnt ∧
      s.block.rxtgt = s'.block.rxtgt ∧
      (∀ a, a < s.block.txlen → s.block.txbuf.byteAt? a = s'.block.txbuf.byteAt? a) ∧
      ∀ a, a < s.block.rxcnt → s.block.rxbuf.byteAt? a = s'.block.rxbuf.byteAt? a := by
  obtain ⟨-, -, -, -, -, hlive⟩ := h
  obtain ⟨hshape, hlen, hcnt, htgt, htx, hrx, -⟩ := hlive hb
  exact ⟨hshape, hlen, hcnt, htgt, htx, hrx⟩

/-- Where a CHECK step is due, the transfer's result is live. -/
theorem Agree.tres (h : Agree s s') (hb : s.block.busy = true) (hc : s.block.seq = .check) :
    s.block.tres = s'.block.tres := by
  obtain ⟨-, -, -, -, -, hlive⟩ := h
  obtain ⟨-, -, -, -, -, -, htres⟩ := hlive hb
  exact htres hc

/-- Both moves answer a next state, and the two agree. -/
def StepsAgree (o o' : Host.Outcome State Fault Refusal) : Prop :=
  ∃ t t', o = .next t ∧ o' = .next t' ∧ Agree t t'

theorem Agree.next (h : Agree s s') : StepsAgree (.next s) (.next s') := ⟨s, s', rfl, rfl, h⟩

/-- What is done to the block alone is not seen outside. -/
theorem Agree.setBlock (h : Agree s s') (hb : LiveEq b b') : Agree { s with block := b } { s' with block := b' } :=
  ⟨h.1, hb⟩

theorem Agree.deliver (h : Agree s s') (r : Nat) (resp : Response) : Agree (s.deliver r resp) (s'.deliver r resp) := by
  obtain ⟨⟨hin, hout, hline, hdraws⟩, hlive⟩ := h
  exact ⟨⟨hin, by simp only [deliver_outbox, hout], hline, hdraws⟩, hlive⟩

theorem Agree.appendSent (h : Agree s s') (e : Sent) :
    Agree { s with line := s.line ++ [e] } { s' with line := s'.line ++ [e] } := by
  obtain ⟨⟨hin, hout, hline, hdraws⟩, hlive⟩ := h
  exact ⟨⟨hin, hout, by simp only [hline], hdraws⟩, hlive⟩

/-- What the host port holds is written before it is read, so the two states need not agree on it (R248, R244). -/
theorem Agree.setPort (h : Agree s s') (p : Port) : Agree { s with port := p } { s' with port := p } := h

theorem Agree.setInputs (h : Agree s s') (rest : List Input) :
    Agree { s with inputs := rest } { s' with inputs := rest } := by
  obtain ⟨⟨-, hout, hline, hdraws⟩, hlive⟩ := h
  exact ⟨⟨rfl, hout, hline, hdraws⟩, hlive⟩

theorem Agree.setDraws (h : Agree s s') (n : Nat) : Agree { s with draws := n } { s' with draws := n } := by
  obtain ⟨⟨hin, hout, hline, -⟩, hlive⟩ := h
  exact ⟨⟨hin, hout, hline, rfl⟩, hlive⟩

theorem Agree.complete (h : Agree s s') (ok : Bool) (len : Nat) :
    Agree (Machine.complete ok len s) (Machine.complete ok len s') := h.setBlock (liveEq_completed h.2 ok len)

/-! #### A request is presented -/

theorem finish_agree {r : Nat} {req : Request} (h : Agree s s') (hp : s.port = .request r req)
    (hp' : s'.port = .request r req) (resp : Response) : StepsAgree (finish resp s) (finish resp s') := by
  rw [finish_request hp, finish_request hp']
  exact (h.deliver r resp).next

theorem transact_agree {c : Config} {op : Transaction} {r : Nat} {req : Request} (h : Agree s s')
    (hp : s.port = .request r req) (hp' : s'.port = .request r req) (hl : op.argsOk = true → op.tx.length ≤ BUFSIZE) :
    StepsAgree (transact c op s) (transact c op s') := by
  cases ha : op.argsOk with
  | false =>
    rw [transact_badArgs hp ha, transact_badArgs hp' ha]
    exact (h.deliver r _).next
  | true =>
    cases hb : s.block.busy with
    | true =>
      rw [transact_busy hp ha hb, transact_busy hp' ha (h.busy ▸ hb)]
      exact (h.deliver r _).next
    | false =>
      obtain ⟨buf, hw, ht⟩ := transact_accept (c := c) hp ha hb (hl ha)
      obtain ⟨buf', hw', ht'⟩ := transact_accept (c := c) hp' ha (h.busy ▸ hb) (hl ha)
      rw [ht, ht']
      exact (h.setBlock (liveEq_start _ _ _ hw hw')).next

theorem runRequest_agree {r : Nat} {req : Request} (h : Agree s s') (hp : s.port = .request r req)
    (hp' : s'.port = .request r req) : StepsAgree (runRequest req s) (runRequest req s') := by
  cases hd : decode req with
  | error e =>
    rw [runRequest_error hd, runRequest_error hd]
    exact finish_agree h hp hp' _
  | ok i =>
    rw [runRequest_ok hd, runRequest_ok hd]
    cases ht : transactionOf Config.hw i with
    | none =>
      obtain ⟨resp, hresp⟩ := exec_pure_answer ht
      rw [hresp, hresp]
      exact finish_agree h hp hp' resp
    | some op =>
      rw [exec_transaction ht, exec_transaction ht]
      exact transact_agree h hp hp' fun ha => (transaction_tx_length ht ha).2

theorem present_agree (h : Agree s s') (r : Nat) (req : Request) :
    StepsAgree (present r req s) (present r req s') := by
  unfold present
  rw [← mayPresent_congr h.2]
  split
  · exact runRequest_agree (h.setPort _) rfl rfl
  · exact h.next

/-! #### The line moves -/

theorem afterSend_agree (h : Agree s s') (hb : s.block.busy = true) (ok : Bool) :
    Agree (afterSend ok s) (afterSend ok s') := by
  obtain ⟨hshape, -, -, htgt, -⟩ := h.transfer hb
  unfold afterSend
  rw [← hshape, ← htgt]
  split
  · split
    · exact h.complete true 0
    · split
      · exact h.complete true 0
      · exact h.setBlock (liveEq_tstate h.2 .rxFix)
    · exact h.setBlock (liveEq_tstate h.2 .rxPre)
  · exact h.complete false 0

/-- The two states read the same valid bytes of a frame being sent. -/
theorem sentBytes_agree (hs : s.Sound) (h : Agree s s') (hsend : s.block.tstate = .send) {n : Nat}
    (hn : n ≤ s.block.txlen) :
    ∃ tx, memRead s.block.txbuf s.block.txlen 0 n = .ok tx ∧ memRead s'.block.txbuf s.block.txlen 0 n = .ok tx := by
  obtain ⟨-, -, -, -, htx, -⟩ := h.transfer (hs.busy_of_transfer (by rw [hsend]; decide))
  obtain ⟨tx, hread⟩ := hs.sending_readable hn
  exact ⟨tx, hread, memRead_congr htx 0 n ▸ hread⟩

theorem txDone_agree (hs : s.Sound) (h : Agree s s') (ok : Bool) : StepsAgree (txDone ok s) (txDone ok s') := by
  by_cases hsend : s.block.tstate = .send
  · have hb := hs.busy_of_transfer (by rw [hsend]; decide)
    obtain ⟨-, hlen, -⟩ := h.transfer hb
    obtain ⟨tx, hread, hread'⟩ := sentBytes_agree hs h hsend le_rfl
    rw [txDone_send ok hsend hread, txDone_send ok (h.tstate ▸ hsend) (hlen ▸ hread')]
    exact (afterSend_agree (h.appendSent _) hb ok).next
  · rw [txDone_disabled ok hsend, txDone_disabled ok (h.tstate ▸ hsend)]
    exact h.next

theorem declaredLength_agree (h : Agree s s') (hb : s.block.busy = true) (hf : Filled s.block.rxbuf s.block.rxcnt)
    (hc : s.block.rxcnt = VAR_PREFIX) : StepsAgree (declaredLength s) (declaredLength s') := by
  obtain ⟨-, -, hcnt, -, -, hrx⟩ := h.transfer hb
  obtain ⟨d, hread, -⟩ := memRead_filled (i := 3) (n := 1) hf (by rw [hc])
  have hread' : memRead s'.block.rxbuf s'.block.rxcnt 3 1 = .ok d := by rw [← hcnt, ← memRead_congr hrx, hread]
  simp only [declaredLength, hread, hread', orFault]
  split
  · exact (h.complete false VAR_PREFIX).next
  · exact (h.setBlock (liveEq_tstate (liveEq_rxtgt h.2 (byteOf d 0).toNat) .rxRest)).next

theorem afterByte_agree (h : Agree s s') (hb : s.block.busy = true) (hf : Filled s.block.rxbuf s.block.rxcnt) :
    StepsAgree (afterByte s) (afterByte s') := by
  obtain ⟨-, -, hcnt, htgt, -, -⟩ := h.transfer hb
  unfold afterByte
  rw [← h.tstate, ← hcnt, ← htgt]
  split
  · split
    · exact (h.complete true _).next
    · exact h.next
  · split
    · exact declaredLength_agree h hb hf ‹_›
    · exact h.next
  · split
    · exact (h.complete true _).next
    · exact h.next
  · exact h.next
  · exact h.next

theorem rxByte_agree (hs : s.Sound) (h : Agree s s') (x : Byte) : StepsAgree (rxByte x s) (rxByte x s') := by
  have hrec := receiving_congr hs h.2
  cases hr : receiving s.block with
  | false =>
    rw [rxByte_dropped x hr, rxByte_dropped x (hrec ▸ hr)]
    exact h.next
  | true =>
    have hb := hs.busy_of_transfer (tstate_of_receiving hr)
    obtain ⟨-, -, hcnt, -⟩ := h.transfer hb
    have hlt := hs.rxcnt_lt hr
    rw [rxByte_receiving x hr hlt, rxByte_receiving x (hrec ▸ hr) (hcnt ▸ hlt)]
    exact afterByte_agree (h.setBlock (liveEq_withByte h.2 x)) hb (hs.rx_filled.store x)

theorem rxTimeout_agree (hs : s.Sound) (h : Agree s s') : StepsAgree (rxTimeout s) (rxTimeout s') := by
  have hrec := receiving_congr hs h.2
  cases hr : receiving s.block with
  | false =>
    rw [rxTimeout_disabled hr, rxTimeout_disabled (hrec ▸ hr)]
    exact h.next
  | true =>
    obtain ⟨-, -, hcnt, -⟩ := h.transfer (hs.busy_of_transfer (tstate_of_receiving hr))
    simp only [rxTimeout, hr, ← hrec, if_true, ← h.tstate, ← hcnt]
    split
    · exact (h.complete false _).next
    · exact (h.complete false 0).next
    · exact (h.complete false VAR_PREFIX).next
    · exact h.next
    · exact h.next

theorem lineStep_agree (hs : s.Sound) (h : Agree s s') (move : LineMove) :
    StepsAgree (lineStep move s) (lineStep move s') := by
  cases move with
  | txDone ok => exact txDone_agree hs h ok
  | rxByte x => exact rxByte_agree hs h x
  | rxTimeout => exact rxTimeout_agree hs h

/-! #### The sequencer takes its turn -/

/-- The answer is made of the transfer's result, and nothing of the block is live after it (R244, R13). -/
theorem transact_check_agree {c : Config} {op : Transaction} {r : Nat} {rx : List Byte} (h : Agree s s')
    (hp : s.port = .resume r) (hp' : s'.port = .resume r) (htres : s.block.tres = s'.block.tres)
    (hread : memRead s.block.rxbuf s.block.rxcnt 0 s.block.tres.rxLen = .ok rx)
    (hread' : memRead s'.block.rxbuf s'.block.rxcnt 0 s'.block.tres.rxLen = .ok rx) :
    StepsAgree (transact c op s) (transact c op s') := by
  rw [transact_check hp hread, transact_check hp' hread', ← htres]
  exact ((h.setBlock (liveEq_release _ _)).deliver r _).next

theorem sequencerStep_agree (hs : s.Sound) (h : Agree s s') : StepsAgree (sequencerStep s) (sequencerStep s') := by
  by_cases hc : s.block.seq = .check
  · have hb := hs.busy_of_check hc
    obtain ⟨cur, i, op, hcur, hd, ht, -⟩ := hs.current_of_busy hb
    obtain ⟨rx, hread⟩ := hs.result_of_check hc
    obtain ⟨-, -, hcnt, -, -, hrx⟩ := h.transfer hb
    have htres := h.tres hb hc
    have hread' : memRead s'.block.rxbuf s'.block.rxcnt 0 s'.block.tres.rxLen = .ok rx := by
      rw [← hcnt, ← htres, ← memRead_congr hrx, hread]
    rw [sequencerStep_check hc hcur hd ht, sequencerStep_check (h.seq ▸ hc) (h.cur ▸ hcur) hd ht]
    exact transact_check_agree (h.setPort _) rfl rfl htres hread hread'
  · rw [sequencerStep_idle hc, sequencerStep_idle (h.seq ▸ hc)]
    exact h.next

/-! #### The block is reset -/

theorem resetStep_agree (hs : s.Sound) (h : Agree s s') (k : Nat) : StepsAgree (resetStep k s) (resetStep k s') := by
  have hreset : Agree { s with block := Block.reset, port := .quiet } { s' with block := Block.reset, port := .quiet } :=
    (h.setBlock (liveEq_refl _)).setPort _
  by_cases hsend : s.block.tstate = .send
  · obtain ⟨-, hlen, -⟩ := h.transfer (hs.busy_of_transfer (by rw [hsend]; decide))
    obtain ⟨tx, hread, hread'⟩ := sentBytes_agree hs h hsend (Nat.min_le_right k _)
    rw [resetStep_send hsend hread, resetStep_send (h.tstate ▸ hsend) (hlen ▸ hread')]
    exact (hreset.appendSent _).next
  · rw [resetStep_quiet k hsend, resetStep_quiet k (h.tstate ▸ hsend)]
    exact hreset.next

/-! #### One step -/

theorem react_agree (hs : s.Sound) (h : Agree s s') (input : Input) : StepsAgree (react input s) (react input s') := by
  cases input with
  | present r req => exact present_agree h r req
  | line move => exact lineStep_agree hs h move
  | sequencer => exact sequencerStep_agree hs h
  | reset k => exact resetStep_agree hs h k

theorem unattended_agree (hs : s.Sound) (h : Agree s s') : StepsAgree (unattended s) (unattended s') := by
  obtain ⟨-, -, -, hdraws⟩ := h.1
  unfold unattended
  rw [← hdraws, ← oracleMove_congr hs h.2]
  split
  · exact lineStep_agree (s := { s with draws := s.draws + 1 }) hs (h.setDraws _) _
  · exact sequencerStep_agree hs h

/-- One step is a function of the live part and the outside, up to what no later step reads (R18, R29). -/
theorem step_agree (hs : s.Sound) (h : Agree s s') : StepsAgree (step s) (step s') := by
  obtain ⟨hin, -⟩ := h.1
  unfold step advance
  rw [← hin]
  split
  · exact unattended_agree hs h
  · rename_i input rest _
    exact react_agree (s := { s with inputs := rest }) hs (h.setInputs rest) input

end Sys2Proof.Noninterference

namespace Sys2Proof.Proofs

/-- Settles O47: every move of the machine reads the live part alone. -/
theorem scratchIsNeverRead : Obligations.ScratchIsNeverRead := by
  intro s s' hs _ hout hlive
  exact Noninterference.step_agree hs ⟨hout, hlive⟩

end Sys2Proof.Proofs
end

section
/-! SUPPORT. The two bytes of a composed status (10_state.md rule R30), and a buffer read that runs past the valid bytes
(R29). -/

namespace Sys2Proof.Machine

/-- The high byte of a composed status is the error class (R30). -/
@[simp] theorem errorClassOf_composite (cls dev : Byte) : errorClassOf (composite cls dev) = cls := by
  rw [errorClassOf, composite, BitVec.extractLsb'_append_eq_of_le (le_refl 8)]
  exact BitVec.extractLsb'_eq_self

/-- The low byte of a composed status is the device status byte (R30). -/
@[simp] theorem deviceStatusOf_composite (cls dev : Byte) : deviceStatusOf (composite cls dev) = dev := by
  rw [deviceStatusOf, composite, BitVec.extractLsb'_append_eq_of_add_le (le_refl 8)]
  exact BitVec.extractLsb'_eq_self

/-- The composer as shift and or (R30). -/
theorem composite_eq_shift_or (cls dev : Byte) :
    composite cls dev = (cls.setWidth 16 <<< 8) ||| dev.setWidth 16 := by
  rw [composite, BitVec.append_def, BitVec.shiftLeftZeroExtend_eq, BitVec.setWidth'_eq]

/-- MemRead of a range that passes the valid count is a fault (R29). -/
theorem memRead_past_valid (m : Memory) {valid i n : Nat} (hpast : valid < i + n) (hn : 0 < n) :
    memRead m valid i n = .error .invalidByte := by
  induction n generalizing i with
  | zero => exact absurd hn (lt_irrefl 0)
  | succ n ih =>
    by_cases hi : i < valid
    · have hrest : memRead m valid (i + 1) n = .error .invalidByte := ih (by omega) (by omega)
      cases hb : m.byteAt? i with
      | none => simp only [memRead, if_pos hi, hb]
      | some b => simp only [memRead, if_pos hi, hb, hrest]
    · simp only [memRead, if_neg hi]

end Sys2Proof.Machine

namespace Sys2Proof.Proofs

open Sys2Proof.Machine

/-- Settles O6: the composer appends the two bytes. -/
theorem statusIsClassOverDeviceByte : Obligations.StatusIsClassOverDeviceByte := by
  intro cls dev
  refine ⟨composite_eq_shift_or cls dev, errorClassOf_composite cls dev, deviceStatusOf_composite cls dev, ?_⟩
  rw [isError, errorClassOf_composite, decide_eq_true_eq]

/-- Settles O42, by induction on the bytes still to read: a read stops at the valid count at the latest. -/
theorem invalidByteIsAFault : Obligations.InvalidByteIsAFault :=
  fun m _ _ _ hpast hn => memRead_past_valid m hpast hn

end Sys2Proof.Proofs
end

section
/-! SUPPORT. A request at the host port (43_transport.md rules R248, R249): whose it may be, and everything it can do to
any state. -/

namespace Sys2Proof.Machine

/-- A requester has nothing outstanding exactly where CUR is not its operation (R248). -/
theorem outstanding_eq_false_iff {b : Block} {r : Nat} :
    outstanding b r = false ↔ ∀ cur, b.cur = some cur → cur.requester ≠ r := by
  unfold outstanding
  split
  · simp [*]
  · simp [*]

theorem mayPresent_iff {n r : Nat} {req : Request} {b : Block} :
    mayPresent n r req b = true ↔ r < n ∧ outstanding b r = false ∧ req.wf = true := by
  simp [mayPresent, and_assoc]

/-- The claims' `MayPresent` is the machine's guard of a Present step. -/
theorem mayPresent_iff_claim {s : State} {r : Nat} {req : Request} :
    mayPresent Config.hw.nreq r req s.block = true ↔ Claims.MayPresent s r req := by
  rw [mayPresent_iff, outstanding_eq_false_iff, Request.wf, decide_eq_true_eq]
  rfl

theorem present_enabled {s : State} {r : Nat} {req : Request} (h : mayPresent Config.hw.nreq r req s.block = true) :
    present r req s = runRequest req { s with port := .request r req } := by
  rw [present, if_pos h]

theorem present_disabled {s : State} {r : Nat} {req : Request} (h : mayPresent Config.hw.nreq r req s.block = false) :
    present r req s = .next s := by
  rw [present, if_neg (by simp [h])]

/-- The idle block `b` takes requester `r`'s transport operation and starts its transfer, and is then `b'` (R249, R236). -/
def Accepts (r : Nat) (req : Request) (b b' : Block) : Prop :=
  b.busy = false ∧ ∃ i op buf, decode req = .ok i ∧ transactionOf Config.hw i = some op ∧ op.argsOk = true ∧
    memWrite b.txbuf 0 op.tx = .ok buf ∧ b' = (b.take ⟨r, req⟩).start op.shape op.tx op.m buf

/-- A request is answered at once, or its operation takes the idle transport (R248, R249). -/
theorem runRequest_request {s : State} {r : Nat} {req : Request} (hp : s.port = .request r req) :
    (∃ resp, runRequest req s = .next (s.deliver r resp)) ∨
      ∃ b', Accepts r req s.block b' ∧ runRequest req s = .next { s with block := b' } := by
  cases hd : decode req with
  | error e => exact .inl ⟨_, (runRequest_error hd s).trans (finish_request hp _)⟩
  | ok i =>
    rw [runRequest_ok hd]
    cases ht : transactionOf Config.hw i with
    | none =>
      obtain ⟨resp, hresp⟩ := exec_pure ht s
      exact .inl ⟨resp, hresp.trans (finish_request hp resp)⟩
    | some op =>
      rw [exec_transaction ht]
      cases ha : op.argsOk with
      | false => exact .inl ⟨_, transact_badArgs hp ha⟩
      | true =>
        cases hb : s.block.busy with
        | true => exact .inl ⟨_, transact_busy hp ha hb⟩
        | false =>
          obtain ⟨buf, hw, hnext⟩ := transact_accept hp ha hb (transaction_tx_length ht ha).2
          exact .inr ⟨_, ⟨hb, i, op, buf, hd, ht, ha, hw, rfl⟩, hnext⟩

end Sys2Proof.Machine

namespace Sys2Proof.Proofs

open Sys2Proof.Machine

/-- Settles O29: what a request can do, at the Present step that runs it. -/
theorem requestIsAnsweredOrTakesTheTransport : Obligations.RequestIsAnsweredOrTakesTheTransport := by
  intro s r req rest hin hmay
  have hstep : step s = runRequest req { s with inputs := rest, port := .request r req } := by
    rw [step, advance, hin]
    exact present_enabled (s := { s with inputs := rest }) (mayPresent_iff_claim.mpr hmay)
  rw [hstep]
  obtain ⟨resp, hnext⟩ | ⟨b', ⟨hidle, _, _, _, _, _, _, _, rfl⟩, hnext⟩ :=
    runRequest_request (s := { s with inputs := rest, port := .request r req }) rfl
  · exact ⟨_, hnext, rfl, rfl, .inl ⟨rfl, resp, rfl⟩⟩
  · exact ⟨_, hnext, rfl, rfl, .inr ⟨hidle, rfl, rfl, rfl⟩⟩

end Sys2Proof.Proofs
end

section
/-! PROOF of O40, O41 and O44: what one step of a sound block can do, said once, and the invariant and the ownership of
the transport read off it. The line's moves need the invariant in parts, because between the byte that ends a receive and
its completion RXCNT has reached RXTGT and no phase of `Phase` holds. -/

namespace Sys2Proof.Soundness

open Sys2Proof.Machine

variable {b b' : Block} {s t : State} {op : Transaction}

/-! ### The invariant in parts -/

/-- What the invariant says of the buffers and the counts alone. -/
structure Bounded (b : Block) : Prop where
  tx_canonical : b.txbuf.wf = true
  rx_canonical : b.rxbuf.wf = true
  txlen_le : b.txlen ≤ BUFSIZE
  rxcnt_le : b.rxcnt ≤ b.rxtgt
  rxtgt_le : b.rxtgt ≤ MAXFRAME
  tres_le : b.tres.rxLen ≤ MAXFRAME
  tx_filled : Filled b.txbuf b.txlen
  rx_filled : Filled b.rxbuf b.rxcnt

/-- What the invariant says of a block with `op` in progress, but for where `op` stands in its transfer. -/
structure Runs (op : Transaction) (b : Block) : Prop extends Bounded b where
  busy : b.busy = true
  shape : b.tshape = op.shape
  latched : ∃ cur i, b.cur = some cur ∧ cur.requester < Config.hw.nreq ∧ cur.req.wf = true ∧
    decode cur.req = .ok i ∧ transactionOf Config.hw i = some op ∧ op.argsOk = true ∧
    b.txlen = op.tx.length ∧ Holds b.txbuf op.tx

theorem bounded (hs : b.Sound) : Bounded b := { hs with }

/-- A busy sound block is in a phase of the operation it runs (R25). -/
theorem runs_of_busy (hs : b.Sound) (hb : b.busy = true) : ∃ op, Runs op b ∧ Phase op b := by
  obtain ⟨cur, -, -, hcur, -⟩ := hs.current_of_busy hb
  obtain ⟨hr, hwf, i, op, hd, ht, ha, hlen, hheld, hshape, hphase⟩ := hs.carries cur hcur
  exact ⟨op, { bounded hs with
    busy := hb, shape := hshape, latched := ⟨cur, i, hcur, hr, hwf, hd, ht, ha, hlen, hheld⟩ }, hphase⟩

/-- An idle block needs only its buffers and counts in order. -/
theorem Bounded.sound_of_idle (h : Bounded b) (hbusy : b.busy = false) (hseq : b.seq = .idle)
    (htst : b.tstate = .idle) (hcur : b.cur = none) : b.Sound :=
  { h with
    busy_iff := by simp [hbusy, hseq]
    not_build := by simp [hseq]
    xfer_iff := by simp [hseq, htst]
    cur_iff := by simp [hcur, hbusy]
    carries := by simp [hcur] }

/-- A block that runs an operation and stands in a phase of it, before its CHECK step is due or with it due (R24). -/
theorem Runs.sound (h : Runs op b) (hphase : Phase op b)
    (hseq : (b.seq = .xfer ∧ b.tstate ≠ .idle) ∨ (b.seq = .check ∧ b.tstate = .idle)) : b.Sound := by
  obtain ⟨cur, i, hcur, hr, hwf, hd, ht, ha, hlen, hheld⟩ := h.latched
  have hnot : b.seq ≠ .idle ∧ b.seq ≠ .build ∧ (b.seq = .xfer ↔ b.tstate ≠ .idle) := by
    obtain ⟨hs, htst⟩ | ⟨hs, htst⟩ := hseq
    · simp [hs, htst]
    · simp [hs, htst]
  obtain ⟨hidle, hbuild, hxfer⟩ := hnot
  exact { h.toBounded with
    busy_iff := iff_of_true h.busy hidle
    not_build := hbuild
    xfer_iff := hxfer
    cur_iff := by simp [hcur, h.busy]
    carries := fun cur' hcur' => by
      obtain rfl : cur = cur' := Option.some.inj (hcur.symm.trans hcur')
      exact ⟨hr, hwf, i, op, hd, ht, ha, hlen, hheld, h.shape, hphase⟩ }

/-- `complete(ok, n)` of at most the bytes received, with a result that fits if it is a success (R244). -/
theorem Runs.completed (h : Runs op b) {ok : Bool} {n : Nat} (hn : n ≤ b.rxcnt)
    (hfits : ok = true → ResultFits op b n) : (Claims.completed b ok n).Sound :=
  have hbound : n ≤ MAXFRAME := hn.trans (h.rxcnt_le.trans h.rxtgt_le)
  Runs.sound (op := op) { h with tres_le := hbound } ⟨hn, hfits⟩ (.inr ⟨rfl, rfl⟩)

/-- A received byte leaves the operation running: one more byte of RXBUF is valid (R233). -/
theorem Runs.withByte (h : Runs op b) (hlt : b.rxcnt < b.rxtgt) (hroom : b.rxcnt < BUFSIZE) (x : Byte) :
    Runs op (Noninterference.withByte b x) :=
  { h with
    rx_canonical := store_wf h.rx_canonical hroom
    rxcnt_le := hlt
    rx_filled := h.rx_filled.store x }

/-! ### A request is accepted -/

/-- An accepted operation's request stands in TXBUF, whole (R236). -/
theorem holds_of_memWrite {m buf : Memory} {tx : List Byte} (h : memWrite m 0 tx = .ok buf) : Holds buf tx := by
  intro a ha
  rw [memWrite_byteAt? h, if_pos ⟨Nat.zero_le a, by omega⟩, Nat.sub_zero]

theorem filled_of_holds {m : Memory} {xs : List Byte} (h : Holds m xs) : Filled m xs.length := by
  intro a ha
  rw [h a ha, List.getElem?_eq_getElem ha]
  rfl

theorem accepts_sound {r : Nat} {req : Request} (hs : b.Sound) (h : Accepts r req b b')
    (hmay : mayPresent Config.hw.nreq r req b = true) : b'.Sound := by
  obtain ⟨-, i, op, buf, hd, ht, ha, hw, rfl⟩ := h
  obtain ⟨hr, -, hwf⟩ := mayPresent_iff.mp hmay
  have hheld : Holds buf op.tx := holds_of_memWrite hw
  have hruns : Runs op ((b.take ⟨r, req⟩).start op.shape op.tx op.m buf) :=
    { tx_canonical := memWrite_wf hw hs.tx_canonical
      rx_canonical := hs.rx_canonical
      txlen_le := (transaction_tx_length ht ha).2
      rxcnt_le := Nat.zero_le _
      rxtgt_le := transaction_target_le ht ha
      tres_le := hs.tres_le
      tx_filled := filled_of_holds hheld
      rx_filled := fun a ha => absurd ha (Nat.not_lt_zero a)
      busy := rfl
      shape := rfl
      latched := ⟨_, i, rfl, hr, hwf, hd, ht, ha, rfl, hheld⟩ }
  exact hruns.sound ⟨rfl, rfl⟩ (.inl ⟨rfl, by simp⟩)

/-! ### The line moves -/

/-- The operation in progress goes on: the invariant is kept, and who holds the transport and the responses delivered are
as before. -/
def GoesOn (s t : State) : Prop :=
  t.block.Sound ∧ t.block.busy = s.block.busy ∧ t.block.cur = s.block.cur ∧ t.outbox = s.outbox

theorem GoesOn.refl (hs : s.Sound) : GoesOn s s := ⟨hs, rfl, rfl, rfl⟩

/-- The operation completes its transfer (R244). -/
theorem goesOn_complete (h : Runs op s.block) {ok : Bool} {n : Nat} (hn : n ≤ s.block.rxcnt)
    (hfits : ok = true → ResultFits op s.block n) : GoesOn s (complete ok n s) :=
  ⟨h.completed hn hfits, rfl, rfl, rfl⟩

/-- R237. -/
theorem goesOn_afterSend (h : Runs op s.block) (hseq : s.block.seq = .xfer) (hcnt : s.block.rxcnt = 0)
    (htgt : s.block.rxtgt = firstTarget op.shape op.m) (ok : Bool) : GoesOn s (afterSend ok s) := by
  have hshape : s.block.tshape = op.shape := h.shape
  unfold afterSend
  split
  · split
    case _ hsend =>
      have hfits : ResultFits op s.block 0 := by simp only [ResultFits, ← hshape, hsend]
      exact goesOn_complete h (Nat.zero_le _) fun _ => hfits
    case _ hfix =>
      have htgt : s.block.rxtgt = op.m := by simpa only [firstTarget, ← hshape, hfix] using htgt
      split
      · have hfits : ResultFits op s.block 0 := by
          simp only [ResultFits, ← hshape, hfix]
          omega
        exact goesOn_complete h (Nat.zero_le _) fun _ => hfits
      · have hphase : Phase op { s.block with tstate := .rxFix } :=
          ⟨hshape ▸ hfix, htgt, by show s.block.rxcnt < s.block.rxtgt; omega⟩
        exact ⟨Runs.sound { h with } hphase (.inl ⟨hseq, nofun⟩), rfl, rfl, rfl⟩
    case _ hvar =>
      have htgt : s.block.rxtgt = VAR_PREFIX := by simpa only [firstTarget, ← hshape, hvar] using htgt
      have hphase : Phase op { s.block with tstate := .rxPre } :=
        ⟨hshape ▸ hvar, htgt, by show s.block.rxcnt < s.block.rxtgt; rw [hcnt, htgt]; decide⟩
      exact ⟨Runs.sound { h with } hphase (.inl ⟨hseq, nofun⟩), rfl, rfl, rfl⟩
  · exact goesOn_complete h (Nat.zero_le _) nofun

theorem goesOn_txDone (hs : s.Sound) {ok : Bool} (ht : txDone ok s = .next t) : GoesOn s t := by
  by_cases hsend : s.block.tstate = .send
  · have hne : s.block.tstate ≠ .idle := by simp [hsend]
    obtain ⟨op, hruns, hphase⟩ := runs_of_busy hs (hs.busy_of_transfer hne)
    obtain ⟨hcnt, htgt⟩ : s.block.rxcnt = 0 ∧ s.block.rxtgt = firstTarget op.shape op.m := by
      simpa only [Phase, hsend] using hphase
    obtain ⟨tx, hread⟩ := hs.sending_readable le_rfl
    rw [txDone_send ok hsend hread] at ht
    cases ht
    exact goesOn_afterSend (s := { s with line := s.line ++ [_] }) hruns (hs.xfer_iff.mpr hne) hcnt htgt ok
  · rw [txDone_disabled ok hsend] at ht
    cases ht
    exact .refl hs

/-- Where the operation stands in a receive, whether or not it still waits for a byte (R238, R240). -/
def Receives (op : Transaction) (b : Block) : Prop :=
  match b.tstate with
  | .rxFix => op.shape = .fixed ∧ b.rxtgt = op.m
  | .rxPre => op.shape = .var ∧ b.rxtgt = VAR_PREFIX
  | .rxRest =>
    op.shape = .var ∧ MINFRAME ≤ b.rxtgt ∧ VAR_PREFIX ≤ b.rxcnt ∧
      b.rxbuf.byteAt? 3 = some (BitVec.ofNat 8 b.rxtgt)
  | .send => False
  | .idle => False

theorem receives_of_phase (hphase : Phase op b) (hr : receiving b = true) : Receives op b := by
  cases htst : b.tstate <;> simp only [Phase, Receives, receiving, htst] at hphase hr ⊢
  case idle => cases hr
  case send => cases hr
  case rxFix => exact ⟨hphase.1, hphase.2.1⟩
  case rxPre => exact ⟨hphase.1, hphase.2.1⟩
  case rxRest =>
    obtain ⟨hshape, hmin, hpre, -, hdecl⟩ := hphase
    exact ⟨hshape, hmin, hpre, hdecl⟩

/-- A receive that is short of its count is a phase of the operation. -/
theorem Receives.phase (h : Receives op b) (hlt : b.rxcnt < b.rxtgt) : Phase op b := by
  cases htst : b.tstate <;> simp only [Phase, Receives, htst] at h ⊢
  case rxFix => exact ⟨h.1, h.2, hlt⟩
  case rxPre => exact ⟨h.1, h.2, hlt⟩
  case rxRest =>
    obtain ⟨hshape, hmin, hpre, hdecl⟩ := h
    exact ⟨hshape, hmin, hpre, hlt, hdecl⟩

/-- A byte of the remainder leaves byte 3 as it was declared (R241). -/
theorem Receives.withByte (h : Receives op b) (x : Byte) : Receives op (Noninterference.withByte b x) := by
  cases htst : b.tstate <;> simp only [Receives, Noninterference.withByte, htst] at h ⊢
  case rxFix => exact h
  case rxPre => exact h
  case rxRest =>
    obtain ⟨hshape, hmin, hpre, hdecl⟩ := h
    have hne : 3 ≠ b.rxcnt := by
      unfold VAR_PREFIX at hpre
      omega
    exact ⟨hshape, hmin, Nat.le_succ_of_le hpre, by rw [byteAt?_store, if_neg hne, hdecl]⟩

theorem Receives.tstate_ne_idle (h : Receives op b) : b.tstate ≠ .idle := by
  intro hidle
  simp only [Receives, hidle] at h

/-- The operation waits for its next byte. -/
theorem goesOn_waiting (h : Runs op s.block) (hseq : s.block.seq = .xfer) (hrec : Receives op s.block)
    (hne : s.block.rxcnt ≠ s.block.rxtgt) : GoesOn s s :=
  .refl (h.sound (hrec.phase (lt_of_le_of_ne h.rxcnt_le hne)) (.inl ⟨hseq, hrec.tstate_ne_idle⟩))

/-- R241: byte 3, once it is in, declares how long the frame is. -/
theorem goesOn_declaredLength (h : Runs op s.block) (hseq : s.block.seq = .xfer) (hshape : op.shape = .var)
    (hcnt : s.block.rxcnt = VAR_PREFIX) (ht : declaredLength s = .next t) : GoesOn s t := by
  obtain ⟨d, hread, hlen, hd⟩ := memRead_filled (i := 3) (n := 1) h.rx_filled (by rw [hcnt])
  obtain ⟨x, rfl⟩ := List.length_eq_one_iff.mp hlen
  have hbyte : s.block.rxbuf.byteAt? 3 = some x := hd 0 Nat.one_pos
  simp only [declaredLength, hread, orFault] at ht
  split at ht
  · cases ht
    exact goesOn_complete h hcnt.ge nofun
  · rename_i hshort
    cases ht
    have hmin : MINFRAME ≤ x.toNat := not_lt.mp hshort
    have hlt : s.block.rxcnt < x.toNat := by
      rw [hcnt]
      exact lt_of_lt_of_le (by decide) hmin
    have hruns : Runs op { s.block with rxtgt := x.toNat, tstate := .rxRest } :=
      { h with rxcnt_le := hlt.le, rxtgt_le := Nat.le_of_lt_succ x.isLt }
    have hphase : Phase op { s.block with rxtgt := x.toNat, tstate := .rxRest } :=
      ⟨hshape, hmin, hcnt.ge, hlt, by simpa using hbyte⟩
    exact ⟨hruns.sound hphase (.inl ⟨hseq, nofun⟩), rfl, rfl, rfl⟩

/-- R239, R241: a receive goes on, or completes, once a byte has been stored. -/
theorem goesOn_afterByte (h : Runs op s.block) (hseq : s.block.seq = .xfer) (hrec : Receives op s.block)
    (ht : afterByte s = .next t) : GoesOn s t := by
  have hrec' := hrec
  cases htst : s.block.tstate <;> simp only [Receives, htst] at hrec <;> simp only [afterByte, htst] at ht
  case rxFix =>
    obtain ⟨hshape, htgt⟩ := hrec
    split at ht
    · rename_i hfull
      cases ht
      have hfits : ResultFits op s.block s.block.rxcnt := by simp only [ResultFits, hshape, hfull, htgt]
      exact goesOn_complete h le_rfl fun _ => hfits
    · rename_i hne
      cases ht
      exact goesOn_waiting h hseq hrec' hne
  case rxPre =>
    obtain ⟨hshape, htgt⟩ := hrec
    split at ht
    · rename_i hcnt
      exact goesOn_declaredLength h hseq hshape hcnt ht
    · rename_i hne
      cases ht
      exact goesOn_waiting h hseq hrec' (htgt ▸ hne)
  case rxRest =>
    obtain ⟨hshape, hmin, -, hdecl⟩ := hrec
    split at ht
    · rename_i hfull
      cases ht
      have hfits : ResultFits op s.block s.block.rxtgt := by
        simp only [ResultFits, hshape]
        exact ⟨hmin, hdecl⟩
      exact goesOn_complete h hfull.ge fun _ => hfits
    · rename_i hne
      cases ht
      exact goesOn_waiting h hseq hrec' hne

theorem goesOn_rxByte (hs : s.Sound) {x : Byte} (ht : rxByte x s = .next t) : GoesOn s t := by
  cases hr : receiving s.block with
  | false =>
    rw [rxByte_dropped x hr] at ht
    cases ht
    exact .refl hs
  | true =>
    have hne := tstate_of_receiving hr
    have hroom := hs.rxcnt_lt hr
    obtain ⟨op, hruns, hphase⟩ := runs_of_busy hs (hs.busy_of_transfer hne)
    rw [rxByte_receiving x hr hroom] at ht
    exact goesOn_afterByte (s := { s with block := Noninterference.withByte s.block x })
      (hruns.withByte (rxcnt_lt_of_receiving hr) hroom x) (hs.xfer_iff.mpr hne)
      ((receives_of_phase hphase hr).withByte x) ht

theorem goesOn_rxTimeout (hs : s.Sound) (ht : rxTimeout s = .next t) : GoesOn s t := by
  cases hr : receiving s.block with
  | false =>
    rw [rxTimeout_disabled hr] at ht
    cases ht
    exact .refl hs
  | true =>
    obtain ⟨op, hruns, hphase⟩ := runs_of_busy hs (hs.busy_of_transfer (tstate_of_receiving hr))
    have hrec := receives_of_phase hphase hr
    cases htst : s.block.tstate <;> simp only [Receives, htst] at hrec <;>
      simp only [rxTimeout, hr, if_true, htst] at ht
    case rxFix =>
      cases ht
      exact goesOn_complete hruns le_rfl nofun
    case rxPre =>
      cases ht
      exact goesOn_complete hruns (Nat.zero_le _) nofun
    case rxRest =>
      obtain ⟨-, -, hpre, -⟩ := hrec
      cases ht
      exact goesOn_complete hruns hpre nofun

theorem goesOn_lineStep (hs : s.Sound) {move : LineMove} (ht : lineStep move s = .next t) : GoesOn s t := by
  cases move with
  | txDone ok => exact goesOn_txDone hs ht
  | rxByte x => exact goesOn_rxByte hs ht
  | rxTimeout => exact goesOn_rxTimeout hs ht

/-! ### One step -/

/-- Everything the next move of the outside, `input`, or with none listed the machine's own, can do to a sound block `b`
and the responses `out` delivered so far. -/
inductive Effect (input : Option Input) (b : Block) (out : List Delivery) : Block → List Delivery → Prop
  /-- No step of its agent (R248, R253), or a move of the line (R232 to R242). -/
  | goesOn {b' : Block} : b'.Sound → b'.busy = b.busy → b'.cur = b.cur → Effect input b out b' out
  /-- A request answered at once (R122, R248, R250). -/
  | answers {r : Nat} (resp : Response) : outstanding b r = false →
      Effect input b out b (out ++ [{ requester := r, resp := resp }])
  /-- A request that takes the idle transport (R249). -/
  | accepts {r : Nat} {req : Request} {b' : Block} : mayPresent Config.hw.nreq r req b = true →
      Accepts r req b b' → Effect input b out b' out
  /-- A CHECK step: the operation in CUR is answered and gives the transport up (R244). -/
  | finishes {cur : Current} (resp : Response) : b.seq = .check → b.cur = some cur →
      Effect input b out b.release (out ++ [{ requester := cur.requester, resp := resp }])
  /-- A reset (R303). -/
  | resets {k : Nat} : input = some (.reset k) → Effect input b out Block.reset out

theorem effect_of_goesOn {input : Option Input} (h : GoesOn s t) : Effect input s.block s.outbox t.block t.outbox := by
  obtain ⟨hs, hbusy, hcur, hout⟩ := h
  exact hout ▸ .goesOn hs hbusy hcur

theorem effect_of_present {input : Option Input} (hs : s.Sound) {r : Nat} {req : Request}
    (ht : present r req s = .next t) : Effect input s.block s.outbox t.block t.outbox := by
  cases hmay : mayPresent Config.hw.nreq r req s.block with
  | false =>
    rw [present_disabled hmay] at ht
    cases ht
    exact effect_of_goesOn (.refl hs)
  | true =>
    obtain ⟨-, hfree, -⟩ := mayPresent_iff.mp hmay
    rw [present_enabled hmay] at ht
    obtain ⟨resp, hnext⟩ | ⟨b', hacc, hnext⟩ := runRequest_request (s := { s with port := .request r req }) rfl
    · cases hnext.symm.trans ht
      exact .answers resp hfree
    · cases hnext.symm.trans ht
      exact .accepts hmay hacc

theorem effect_of_sequencerStep {input : Option Input} (hs : s.Sound) (ht : sequencerStep s = .next t) :
    Effect input s.block s.outbox t.block t.outbox := by
  by_cases hseq : s.block.seq = .check
  · obtain ⟨cur, i, op, hcur, hd, hop, -⟩ := hs.current_of_busy (hs.busy_of_check hseq)
    obtain ⟨rx, hread⟩ := hs.result_of_check hseq
    rw [sequencerStep_check hseq hcur hd hop,
      transact_check (s := { s with port := .resume cur.requester }) rfl hread] at ht
    cases ht
    exact .finishes _ hseq hcur
  · rw [sequencerStep_idle hseq] at ht
    cases ht
    exact effect_of_goesOn (.refl hs)

theorem effect_of_resetStep (hs : s.Sound) {k : Nat} (ht : resetStep k s = .next t) :
    Effect (some (.reset k)) s.block s.outbox t.block t.outbox := by
  by_cases hsend : s.block.tstate = .send
  · obtain ⟨tx, hread⟩ := hs.sending_readable (Nat.min_le_right k _)
    rw [resetStep_send hsend hread] at ht
    cases ht
    exact .resets rfl
  · rw [resetStep_quiet k hsend] at ht
    cases ht
    exact .resets rfl

theorem effect_of_react (hs : s.Sound) {input : Input} (ht : react input s = .next t) :
    Effect (some input) s.block s.outbox t.block t.outbox := by
  cases input with
  | present r req => exact effect_of_present hs ht
  | line move => exact effect_of_goesOn (goesOn_lineStep hs ht)
  | sequencer => exact effect_of_sequencerStep hs ht
  | reset k => exact effect_of_resetStep hs ht

theorem effect_of_unattended (hs : s.Sound) (ht : unattended s = .next t) :
    Effect none s.block s.outbox t.block t.outbox := by
  unfold unattended at ht
  split at ht
  · exact effect_of_goesOn (goesOn_lineStep (s := { s with draws := s.draws + 1 }) hs ht)
  · exact effect_of_sequencerStep hs ht

/-- Everything one step of a sound state can do. -/
theorem effect_of_step (hs : s.Sound) (ht : step s = .next t) :
    Effect s.inputs.head? s.block s.outbox t.block t.outbox := by
  unfold step advance at ht
  split at ht
  · rename_i hin
    rw [hin]
    exact effect_of_unattended hs ht
  · rename_i input rest hin
    rw [hin]
    exact effect_of_react (s := { s with inputs := rest }) hs ht

/-! ### What every effect keeps -/

variable {input : Option Input} {out out' : List Delivery}

theorem reset_sound : Block.reset.Sound :=
  Bounded.sound_of_idle
    { tx_canonical := rfl
      rx_canonical := rfl
      txlen_le := Nat.zero_le _
      rxcnt_le := Nat.zero_le _
      rxtgt_le := Nat.zero_le _
      tres_le := Nat.zero_le _
      tx_filled := fun a ha => absurd ha (Nat.not_lt_zero a)
      rx_filled := fun a ha => absurd ha (Nat.not_lt_zero a) }
    rfl rfl rfl rfl

theorem release_sound (hs : b.Sound) : b.release.Sound :=
  Bounded.sound_of_idle { bounded hs with } rfl rfl rfl rfl

/-- The invariant is kept. -/
theorem Effect.sound (h : Effect input b out b' out') (hs : b.Sound) : b'.Sound := by
  cases h with
  | goesOn hs' _ _ => exact hs'
  | answers _ _ => exact hs
  | accepts hmay hacc => exact accepts_sound hs hacc hmay
  | finishes _ _ _ => exact release_sound hs
  | resets _ => exact reset_sound

/-- An operation in CUR holds the transport (R25). -/
theorem busy_of_current (hs : b.Sound) {cur : Current} (hcur : b.cur = some cur) : b.busy = true := by
  cases hb : b.busy with
  | true => rfl
  | false => cases (hs.cur_iff.mpr hb).symm.trans hcur

/-- An operation keeps the transport until its CHECK step answers it or a reset takes it away (R25, R251). -/
theorem Effect.ownership (h : Effect input b out b' out') (hs : b.Sound) {cur : Current} (hcur : b.cur = some cur) :
    (b'.busy = true ∧ b'.cur = some cur ∧ ∀ d, out' = out ++ [d] → d.requester ≠ cur.requester) ∨
    (b'.busy = false ∧ b'.cur = none ∧ b.seq = .check ∧
      ∃ resp, out' = out ++ [{ requester := cur.requester, resp := resp }]) ∨
    ((∃ k, input = some (.reset k)) ∧ b' = Block.reset ∧ out' = out) := by
  have hbusy := busy_of_current hs hcur
  cases h with
  | goesOn _ hbusy' hcur' => exact .inl ⟨hbusy'.trans hbusy, hcur'.trans hcur, fun d hd => by simp at hd⟩
  | answers resp hfree =>
    refine .inl ⟨hbusy, hcur, fun d hd => ?_⟩
    obtain rfl : _ = d := by simpa using hd
    exact (outstanding_eq_false_iff.mp hfree cur hcur).symm
  | accepts _ hacc => exact absurd hacc.1 (by simp [hbusy])
  | finishes resp hseq hcur' =>
    obtain rfl := Option.some.inj (hcur'.symm.trans hcur)
    exact .inr (.inl ⟨rfl, rfl, hseq, resp, rfl⟩)
  | resets hin => exact .inr (.inr ⟨⟨_, hin⟩, rfl, rfl⟩)

end Sys2Proof.Soundness

namespace Sys2Proof.Proofs

open Sys2Proof.Machine

/-- Settles O40: every effect of a step keeps the invariant. -/
theorem stepKeepsSound : Obligations.StepKeepsSound :=
  fun _ _ hs ht => (Soundness.effect_of_step hs ht).sound hs

/-- Settles O41: a sound state agrees with itself on the live part, and two states that do both answer a next state. -/
theorem soundStepNeverStops : Obligations.SoundStepNeverStops := by
  intro s hs
  obtain ⟨t, _, ht, -⟩ := Noninterference.step_agree hs ⟨⟨rfl, rfl, rfl, rfl⟩, Noninterference.liveEq_refl s.block⟩
  exact ⟨t, ht⟩

/-- Settles O44: what every effect of a step leaves of the operation in CUR. -/
theorem operationKeepsTheTransportUntilItEnds : Obligations.OperationKeepsTheTransportUntilItEnds := by
  intro s t cur hs hcur ht
  obtain hkept | hanswered | ⟨⟨k, hin⟩, hreset⟩ := (Soundness.effect_of_step hs ht).ownership hs hcur
  · exact .inl hkept
  · exact .inr (.inl hanswered)
  · obtain ⟨rest, hrest⟩ := List.head?_eq_some_iff.mp hin
    exact .inr (.inr ⟨⟨k, rest, hrest⟩, hreset⟩)

end Sys2Proof.Proofs
end

section
/-! SUPPORT. The move the line draws (20_memory.md rule R66), and a step with no move of the outside listed (43_transport.md
rule R235). -/

namespace Sys2Proof.Machine

variable {s : State} {b : Block}

/-- In a receive state the block waits while it is short of RXTGT (R233). -/
theorem receiving_of_rxcnt_lt (hrx : b.tstate = .rxFix ∨ b.tstate = .rxPre ∨ b.tstate = .rxRest)
    (hlt : b.rxcnt < b.rxtgt) : receiving b = true := by
  obtain ht | ht | ht := hrx
  · simp only [receiving, ht, hlt, decide_true]
  · simp only [receiving, ht, hlt, decide_true]
  · simp only [receiving, ht, hlt, decide_true]

/-- In T_SEND the draw says whether the send completes (R66). -/
theorem oracleMove_send (ht : b.tstate = .send) (k : Nat) :
    oracleMove b k = some (.txDone (Config.sendCompletes k)) := by
  simp only [oracleMove, ht]

/-- An idle transport has no move enabled (R235). -/
theorem oracleMove_idle (ht : b.tstate = .idle) (k : Nat) : oracleMove b k = none := by
  simp only [oracleMove, ht]

/-- In an unfinished receive the draw says whether a byte comes, and which, or the timeout (R66). -/
theorem oracleMove_receiving (hr : receiving b = true) (k : Nat) :
    oracleMove b k = some (if Config.timeoutFires k then .rxTimeout else .rxByte (Config.lineByte k)) := by
  cases ht : b.tstate with
  | idle => exact absurd ht (tstate_of_receiving hr)
  | send => simp only [receiving, ht, Bool.false_eq_true] at hr
  | rxFix => simp only [oracleMove, ht, if_pos hr]
  | rxPre => simp only [oracleMove, ht, if_pos hr]
  | rxRest => simp only [oracleMove, ht, if_pos hr]

/-- With nothing listed, an enabled move of the line is taken as if it were listed, and its draw is counted (R235). -/
theorem step_eq_of_oracleMove {move : LineMove} (hin : s.inputs = []) (hmove : oracleMove s.block s.draws = some move) :
    step s = step { s with inputs := [.line move], draws := s.draws + 1 } := by
  have hdrawn : step s = lineStep move { s with draws := s.draws + 1 } := by
    simp only [step, advance, hin, unattended, hmove]
  have hlisted : step { s with inputs := [.line move], draws := s.draws + 1 } =
      lineStep move { s with inputs := [], draws := s.draws + 1 } := rfl
  rw [hdrawn, hlisted, ← hin]

/-- With nothing listed and no move of the line enabled, the sequencer has its turn (R244). -/
theorem step_eq_sequencerStep (hin : s.inputs = []) (hmove : oracleMove s.block s.draws = none) :
    step s = sequencerStep s := by
  simp only [step, advance, hin, unattended, hmove]

end Sys2Proof.Machine

namespace Sys2Proof.Proofs

open Sys2Proof.Machine

/-- Settles O35: which move the oracle draws in T_SEND, in an unfinished receive and in an idle transport, whose sequencer
has no CHECK due. -/
theorem quietOutsideLetsTheLineDraw : Obligations.QuietOutsideLetsTheLineDraw := by
  intro s hin
  refine ⟨fun hsend => ?_, fun hrx hlt => ?_, fun hidle hseq => ?_⟩
  · exact step_eq_of_oracleMove hin (oracleMove_send hsend s.draws)
  · exact step_eq_of_oracleMove hin (oracleMove_receiving (receiving_of_rxcnt_lt hrx hlt) s.draws)
  · have hnodue : s.block.seq ≠ .check := by simp [hseq]
    rw [step_eq_sequencerStep hin (oracleMove_idle hidle s.draws), sequencerStep_idle hnodue]

end Sys2Proof.Proofs
end

section
/-! PROOF of O22, O23 and O25: a request and the instruction it asks for (30_encoding.md rules R120 to R123), and the Present
step of a reserved code (R122). -/

namespace Sys2Proof

open Sys2Proof.Claims (opcodes)

/-- Decoding reads back every operand (R121, R123). -/
@[simp] theorem decode_encode (i : Instr) : decode (encode i) = .ok i := by
  cases i <;> rfl

/-- A request fits the request record exactly where its instruction is well formed (R23). -/
@[simp] theorem wf_encode (i : Instr) : (encode i).wf = i.wf := by
  cases i <;> rfl

theorem op_encode_mem_opcodes (i : Instr) : (encode i).op ∈ opcodes := by
  cases i <;> simp [encode, opcodes]

/-- A request that decodes has the op byte of its instruction, and the instruction keeps no data beyond the request's
(R120). -/
theorem encode_of_decode {q : Request} {i : Instr} (h : decode q = .ok i) :
    (encode i).op = q.op ∧ (encode i).data.length ≤ q.data.length := by
  unfold decode at h
  split at h <;> cases h
  all_goals
    rename_i hop
    exact ⟨BitVec.eq_of_toNat_eq hop.symm, by simp [encode]⟩

/-- What a request that fits the request record decodes to is well formed (R23). -/
theorem wf_of_decode {q : Request} {i : Instr} (h : decode q = .ok i) (hq : q.wf = true) : i.wf = true := by
  obtain ⟨-, hlen⟩ := encode_of_decode h
  rw [← wf_encode, Request.wf, decide_eq_true_eq]
  exact hlen.trans (of_decide_eq_true hq)

/-- R121, R122: the codes of the table decode, and no other does. -/
theorem decode_isOk_iff (q : Request) : (∃ i, decode q = .ok i) ↔ q.op ∈ opcodes := by
  constructor
  · rintro ⟨i, h⟩
    obtain ⟨hop, -⟩ := encode_of_decode h
    exact hop ▸ op_encode_mem_opcodes i
  · obtain ⟨op⟩ := q
    intro h
    fin_cases h <;> exact ⟨_, rfl⟩

theorem decode_reserved {q : Request} (h : q.op ∉ opcodes) : ∃ e, decode q = .error e := by
  cases hd : decode q with
  | error e => exact ⟨e, rfl⟩
  | ok i => exact absurd ((decode_isOk_iff q).mp ⟨i, hd⟩) h

end Sys2Proof

namespace Sys2Proof.Machine

variable {s : State} {r : Nat} {req : Request}

/-- The step that takes a permitted Present runs its request, with the request at the host port (R248). -/
theorem step_present {rest : List Input} (hin : s.inputs = .present r req :: rest) (hmay : Claims.MayPresent s r req) :
    step s = runRequest req { s with inputs := rest, port := .request r req } := by
  rw [step, advance, hin]
  exact present_enabled (s := { s with inputs := rest }) (mayPresent_iff_claim.mpr hmay)

/-- A reserved code is answered with E_FORMAT and no other field, and the block keeps its state (R122). -/
theorem runRequest_reserved (hp : s.port = .request r req) (h : req.op ∉ Claims.opcodes) :
    runRequest req s = .next (s.deliver r { status := composite (Config.hw.errorCode .format) 0, outs := {} }) := by
  obtain ⟨e, he⟩ := decode_reserved h
  rw [runRequest_error he]
  exact finish_request hp _

end Sys2Proof.Machine

namespace Sys2Proof.Proofs

/-- Settles O22, by the cases of the instruction and of the op byte. -/
theorem decodeUndoesEncode : Obligations.DecodeUndoesEncode :=
  ⟨fun i => ⟨decode_encode i, wf_encode i, op_encode_mem_opcodes i⟩,
    fun _ _ h => ⟨(encode_of_decode h).1, wf_of_decode h⟩, decode_isOk_iff⟩

/-- Settles O25: the Present step of a reserved code. -/
theorem reservedCodeAnswersFormatError : Obligations.ReservedCodeAnswersFormatError := by
  intro s r req rest hin hmay hop
  rw [Machine.step_present hin hmay]
  exact Machine.runRequest_reserved rfl hop

/-- Settles O23, by evaluation of the decoder. -/
theorem tableWordsDecode : Obligations.TableWordsDecode :=
  ⟨rfl, rfl, rfl, rfl, rfl, rfl, rfl⟩

end Sys2Proof.Proofs
end

section
/-! PROOF of O17: a read-back laid out in canonical order (30_encoding.md rule R110, 42_motion.md rules R192, R194, R199). A
selected field splits the list of the selected fields where its bytes stand: as many fields come before it as its rank. -/

namespace Sys2Proof.Machine

/-- `LE16` at a half-word's offset reads it (R12). -/
theorem LE16_append_le16 (pre post : List Byte) (v : HalfWord) : LE16 (pre ++ le16 v ++ post) pre.length = v := by
  have hlo : byteOf (pre ++ le16 v ++ post) pre.length = v.extractLsb' 0 8 := by
    simp [byteOf, le16, List.getD_eq_getElem?_getD]
  have hhi : byteOf (pre ++ le16 v ++ post) (pre.length + 1) = v.extractLsb' 8 8 := by
    simp [byteOf, le16, List.getD_eq_getElem?_getD]
  rw [LE16, hlo, hhi, le16_rejoin]

@[simp] theorem slot_ofFields (g : Field → Word) (f : Field) : (Sample.ofFields g).slot f = g f := by
  cases f <;> rfl

/-- Canonical order is the order of the indices (R110). -/
theorem Field.all_eq_before_append (f : Field) :
    Field.all = Field.all.filter (fun g => decide (g.index < f.index)) ++ f :: Field.all.drop (f.index + 1) := by
  cases f <;> rfl

/-- Before a selected field stand as many selected fields as its rank (R192). -/
theorem Field.filter_selected_eq {f : Field} {mask : Byte} (hsel : f.selected mask = true) :
    ∃ before after, Field.all.filter (·.selected mask) = before ++ f :: after ∧ before.length = f.rank mask := by
  refine ⟨(Field.all.filter fun g => decide (g.index < f.index)).filter (·.selected mask),
    (Field.all.drop (f.index + 1)).filter (·.selected mask), ?_, ?_⟩
  · conv_lhs => rw [Field.all_eq_before_append f]
    rw [List.filter_append, List.filter_cons, if_pos hsel]
  · rw [List.filter_filter]
    rfl

/-- The bytes of a list of fields, each its half-word low byte first (R192). -/
theorem flatMap_field_length (g : Field → HalfWord) (fs : List Field) :
    (fs.flatMap fun x => le16 (g x)).length = 2 * fs.length := by
  rw [← List.length_map (f := g), ← flatMap_le16_length, List.flatMap_map]

/-- A selected field's half-word stands at `7 + 2j`, `j` its rank (R192, R194). -/
theorem LE16_readBack {f : Field} {mask : Byte} (hsel : f.selected mask = true) (g : Field → HalfWord)
    {head : List Byte} (hhead : head.length = 7) (tail : List Byte) :
    LE16 (head ++ ((Field.all.filter (·.selected mask)).flatMap fun x => le16 (g x)) ++ tail) (7 + 2 * f.rank mask) =
      g f := by
  obtain ⟨before, after, hsplit, hrank⟩ := Field.filter_selected_eq hsel
  have hoffset : 7 + 2 * f.rank mask = (head ++ before.flatMap fun x => le16 (g x)).length := by
    rw [List.length_append, flatMap_field_length, hhead, hrank]
  rw [hsplit, List.flatMap_append, List.flatMap_cons, hoffset, ← List.append_assoc, ← List.append_assoc,
    List.append_assoc (_ ++ _ ++ _)]
  exact LE16_append_le16 _ _ _

end Sys2Proof.Machine

namespace Sys2Proof.Proofs

open Sys2Proof.Machine

/-- Settles O17: where a selected field's bytes stand. -/
theorem readBackFieldsDecodeInCanonicalOrder : Obligations.ReadBackFieldsDecodeInCanonicalOrder := by
  intro pos mask cmode g fixedPart tail tsw hfixed f
  rw [decodeSample, slot_ofFields]
  change (if f.selected mask then _ else _) = if f.selected mask then _ else _
  split
  · rename_i hsel
    rw [LE16_readBack hsel g (by simp [hfixed])]
  · rfl

end Sys2Proof.Proofs
end

section
/-! PROOF of O46: what a step of a sound state puts on the line (43_transport.md rules R232, R236, R303), move by move. Only
the end of a send and a reset in T_SEND add to the line's record, and what they add is read from TXBUF. -/

namespace Sys2Proof.LineRecord

open Sys2Proof.Machine

variable {s t : State} {b : Block}

/-- The line's record goes from `line` to `line'` by a move in the block state `b`: nothing is added, or in T_SEND one
transmission, the first bytes of TXBUF[0..TXLEN), all of them unless a reset cut it short. -/
def Grows (b : Block) (line line' : List Sent) : Prop :=
  line' = line ∨ (b.tstate = .send ∧ ∃ e, line' = line ++ [e] ∧ Holds b.txbuf e.bytes ∧ e.bytes.length ≤ b.txlen ∧
    (e.how ≠ .cut → e.bytes.length = b.txlen))

/-- A buffer operation that did not stop had a value. -/
theorem orFault_eq_next {α : Type} {x : Except Fault α} {k : α → Host.Outcome State Fault Refusal}
    (h : orFault x k = .next t) : ∃ a, x = .ok a ∧ k a = .next t := by
  cases x with
  | ok a => exact ⟨a, rfl, h⟩
  | error f => cases h

/-- The first bytes of a frame being sent, as they stand in TXBUF (R232). -/
theorem sent_eq (hs : b.Sound) {n : Nat} (hn : n ≤ b.txlen) :
    ∃ tx, memRead b.txbuf b.txlen 0 n = .ok tx ∧ tx.length = n ∧ Holds b.txbuf tx := by
  obtain ⟨tx, hread, hlen, hbytes⟩ := memRead_filled (i := 0) (n := n) hs.tx_filled (by omega)
  exact ⟨tx, hread, hlen, fun a ha => by simpa using hbytes a (hlen ▸ ha)⟩

/-! ### Moves that add nothing -/

@[simp] theorem line_afterSend (ok : Bool) (s : State) : (afterSend ok s).line = s.line := by
  unfold afterSend
  split
  · split
    · rfl
    · split
      · rfl
      · rfl
    · rfl
  · rfl

theorem line_declaredLength (ht : declaredLength s = .next t) : t.line = s.line := by
  obtain ⟨d, -, ht⟩ := orFault_eq_next ht
  dsimp only at ht
  split at ht
  · cases ht
    rfl
  · cases ht
    rfl

theorem line_afterByte (ht : afterByte s = .next t) : t.line = s.line := by
  unfold afterByte at ht
  split at ht
  · split at ht <;> cases ht <;> rfl
  · split at ht
    · exact line_declaredLength ht
    · cases ht
      rfl
  · split at ht <;> cases ht <;> rfl
  · cases ht
    rfl
  · cases ht
    rfl

theorem line_rxByte {x : Byte} (ht : rxByte x s = .next t) : t.line = s.line := by
  unfold rxByte at ht
  split at ht
  · obtain ⟨buf, -, ht⟩ := orFault_eq_next ht
    exact line_afterByte (s := { s with block := { s.block with rxbuf := buf, rxcnt := s.block.rxcnt + 1 } }) ht
  · cases ht
    rfl

theorem line_rxTimeout (ht : rxTimeout s = .next t) : t.line = s.line := by
  unfold rxTimeout at ht
  split at ht
  · split at ht <;> cases ht <;> rfl
  · cases ht
    rfl

theorem line_finish {resp : Response} (ht : finish resp s = .next t) : t.line = s.line := by
  obtain ⟨r, req, -, rfl⟩ | ⟨r, -, rfl⟩ := finish_cases ht
  · rfl
  · rfl

/-- No operation puts anything on the line itself: StartTransfer leaves that to the line's own step (R236, R237). -/
theorem line_exec {i : Instr} (ht : exec i s = .next t) : t.line = s.line := by
  cases hop : transactionOf Config.hw i with
  | none =>
    obtain ⟨resp, hresp⟩ := exec_pure hop s
    exact line_finish (hresp ▸ ht)
  | some op =>
    rw [exec_transaction hop] at ht
    obtain ⟨_, _, -, -, rfl⟩ | ⟨_, _, -, -, -, rfl⟩ | ⟨_, _, _, -, -, -, -, rfl⟩ | ⟨_, _, -, -, rfl⟩ :=
      transact_cases ht
    · rfl
    · rfl
    · rfl
    · rfl

theorem line_runRequest {req : Request} (ht : runRequest req s = .next t) : t.line = s.line := by
  cases hd : decode req with
  | ok i => exact line_exec (runRequest_ok hd s ▸ ht)
  | error e => exact line_finish (runRequest_error hd s ▸ ht)

theorem line_present {r : Nat} {req : Request} (ht : present r req s = .next t) : t.line = s.line := by
  unfold present at ht
  split at ht
  · exact line_runRequest (s := { s with port := .request r req }) ht
  · cases ht
    rfl

theorem line_sequencerStep (ht : sequencerStep s = .next t) : t.line = s.line := by
  by_cases hseq : s.block.seq = .check
  · simp only [sequencerStep, hseq, resumeOperation] at ht
    split at ht
    · cases ht
    · rename_i cur _
      exact line_runRequest (s := { s with port := .resume cur.requester }) ht
  · rw [sequencerStep_idle hseq] at ht
    cases ht
    rfl

/-! ### The end of a send, and a reset -/

theorem grows_txDone (hs : s.Sound) {ok : Bool} (ht : txDone ok s = .next t) : Grows s.block s.line t.line := by
  by_cases hsend : s.block.tstate = .send
  · obtain ⟨tx, hread, hlen, hheld⟩ := sent_eq hs le_rfl
    rw [txDone_send ok hsend hread] at ht
    cases ht
    exact .inr ⟨hsend, _, line_afterSend _ _, hheld, hlen.le, fun _ => hlen⟩
  · rw [txDone_disabled ok hsend] at ht
    cases ht
    exact .inl rfl

theorem grows_resetStep (hs : s.Sound) {k : Nat} (ht : resetStep k s = .next t) : Grows s.block s.line t.line := by
  by_cases hsend : s.block.tstate = .send
  · obtain ⟨tx, hread, hlen, hheld⟩ := sent_eq hs (Nat.min_le_right k _)
    rw [resetStep_send hsend hread] at ht
    cases ht
    exact .inr ⟨hsend, _, rfl, hheld, hlen ▸ Nat.min_le_right k _, fun hcut => absurd rfl hcut⟩
  · rw [resetStep_quiet k hsend] at ht
    cases ht
    exact .inl rfl

/-! ### One step -/

theorem grows_lineStep (hs : s.Sound) {move : LineMove} (ht : lineStep move s = .next t) :
    Grows s.block s.line t.line := by
  cases move with
  | txDone ok => exact grows_txDone hs ht
  | rxByte x => exact .inl (line_rxByte ht)
  | rxTimeout => exact .inl (line_rxTimeout ht)

theorem grows_react (hs : s.Sound) {input : Input} (ht : react input s = .next t) : Grows s.block s.line t.line := by
  cases input with
  | present r req => exact .inl (line_present ht)
  | line move => exact grows_lineStep hs ht
  | sequencer => exact .inl (line_sequencerStep ht)
  | reset k => exact grows_resetStep hs ht

theorem grows_unattended (hs : s.Sound) (ht : unattended s = .next t) : Grows s.block s.line t.line := by
  unfold unattended at ht
  split at ht
  · exact grows_lineStep (s := { s with draws := s.draws + 1 }) hs ht
  · exact .inl (line_sequencerStep ht)

/-- Everything one step of a sound state can do to the line's record. -/
theorem grows_step (hs : s.Sound) (ht : step s = .next t) : Grows s.block s.line t.line := by
  unfold step advance at ht
  split at ht
  · exact grows_unattended hs ht
  · rename_i input rest _
    exact grows_react (s := { s with inputs := rest }) hs ht

/-! ### What TXBUF holds in a send -/

/-- Of two lists at the front of a buffer, the shorter is the first part of the longer. -/
theorem eq_take_of_holds {m : Memory} {xs ys : List Byte} (hxs : Holds m xs) (hys : Holds m ys)
    (hle : xs.length ≤ ys.length) : xs = ys.take xs.length := by
  refine List.ext_getElem? fun a => ?_
  by_cases ha : a < xs.length
  · rw [List.getElem?_take_of_lt ha, ← hxs a ha, hys a (by omega)]
  · rw [List.getElem?_eq_none (by omega), List.getElem?_eq_none (by simp; omega)]

/-- While a frame is being sent, TXBUF[0..TXLEN) is the request of the operation in CUR (R236). -/
theorem current_of_send (hs : b.Sound) (hsend : b.tstate = .send) :
    ∃ cur i op, b.cur = some cur ∧ decode cur.req = .ok i ∧ transactionOf Config.hw i = some op ∧
      b.txlen = op.tx.length ∧ Holds b.txbuf op.tx := by
  obtain ⟨cur, -, -, hcur, -⟩ := hs.current_of_busy (hs.busy_of_transfer (by simp [hsend]))
  obtain ⟨-, -, i, op, hd, hop, -, hlen, hheld, -⟩ := hs.carries cur hcur
  exact ⟨cur, i, op, hcur, hd, hop, hlen, hheld⟩

end Sys2Proof.LineRecord

namespace Sys2Proof.Proofs

open Sys2Proof.LineRecord

/-- Settles O46: a step that adds to the line adds the first bytes of TXBUF, where the request in CUR stands. -/
theorem lineCarriesTheLatchedRequest : Obligations.LineCarriesTheLatchedRequest := by
  intro s t hs ht hne
  obtain hsame | ⟨hsend, e, hline, hbytes, hle, hwhole⟩ := grows_step hs ht
  · exact absurd hsame hne
  · obtain ⟨cur, i, op, hcur, hd, hop, hlen, hheld⟩ := current_of_send hs hsend
    have hpart : e.bytes = op.tx.take e.bytes.length := eq_take_of_holds hbytes hheld (hlen ▸ hle)
    refine ⟨cur, i, op, e, hcur, hd, hop, hline, ?_⟩
    by_cases hcut : e.how = .cut
    · exact .inr ⟨hcut, _, hpart⟩
    · have hall : e.bytes.length = op.tx.length := (hwhole hcut).trans hlen
      exact .inl (by rw [hpart, hall, List.take_length])

end Sys2Proof.Proofs
end

section
/-! PROOF of O1 to O5: the frame codec (40_frame_codec.md rules R131 to R139). ENCODE and VALIDATE answer at once; a
frame with its own checksum passes the checksum test; and the byte a bit is flipped in says which test of a valid frame
fails first. -/

namespace Sys2Proof.Machine

variable {c : Config} {f : List Byte} {cmd hdr st : Byte} {i j k : Nat}

/-- An operation that is `finish` alone answers at its Present step and changes nothing else (R13, R249). -/
theorem answersOnly_of_exec_eq_finish {i : Instr} {s : State} {r : Nat} {req : Request} {resp : Response}
    (hp : s.port = .request r req) (hexec : exec i s = finish resp s) : Claims.AnswersOnly i s r resp :=
  hexec.trans (finish_request hp resp)

/-! ### ENCODE and VALIDATE -/

theorem encodeResponse_of_le (dev cmd opt : Byte) {data : List Byte} (h : data.length ≤ 247) :
    encodeResponse c dev cmd opt data = { status := 0x0000, outs := { data := some (frame c dev cmd opt data) } } := by
  rw [encodeResponse, if_pos h]
  rfl

theorem encodeResponse_of_gt (dev cmd opt : Byte) {data : List Byte} (h : 247 < data.length) :
    encodeResponse c dev cmd opt data = { status := composite (c.errorCode .format) 0, outs := {} } := by
  rw [encodeResponse, if_neg (by simpa using h)]
  rfl

/-- The first check is of the length (R133). -/
theorem validateResponse_of_short (h : f.length < 8) :
    validateResponse c f cmd hdr = { status := composite (c.errorCode .recv) 0, outs := {} } := by
  rw [validateResponse, validate, if_pos h]
  rfl

/-- VALIDATE's response to a frame taken apart (R133). -/
theorem validateResponse_parts (c : Config) (h0 h1 id len cm st : Byte) (p : List Byte) (lo hi cmd hdr : Byte) :
    validateResponse c ([h0, h1, id, len, cm, st] ++ p ++ [lo, hi]) cmd hdr =
      { status :=
          if h0 ≠ hdr ∨ h1 ≠ hdr then composite (c.errorCode .recv) 0
          else if cm &&& 0x7F ≠ cmd then composite (c.errorCode .recv) 0
          else if hi ++ lo ≠ c.crc16 ([h0, h1, id, len, cm, st] ++ p) then composite (c.errorCode .crc) 0
          else composite 0 st
        outs := {} } := by
  rw [validateResponse, validate_parts]
  simp only [ne_eq, ite_not]
  split_ifs with hhdr hcmd hcrc
  · rfl
  · rfl
  · rfl
  · rfl

/-! ### A frame with its own checksum -/

/-- A frame with the expected header, the expected masked command and its own checksum validates, whatever its device id
and length byte (R133, R134). -/
theorem validate_ownChecksum (c : Config) (hdr id len cm st : Byte) (p : List Byte) :
    validate c ([hdr, hdr, id, len, cm, st] ++ p ++ le16 (c.crc16 ([hdr, hdr, id, len, cm, st] ++ p)))
      (cm &&& 0x7F) hdr = .ok st := by
  rw [le16, validate_parts, le16_rejoin]
  simp

/-- A command code below 0x80 is its own masked value (R94, R97). -/
theorem and_7F_of_lt {cmd : Byte} (h : cmd < 0x80) : cmd &&& 0x7F = cmd := by
  apply BitVec.eq_of_toNat_eq
  rw [BitVec.toNat_and]
  exact Nat.and_two_pow_sub_one_of_lt_two_pow (n := 7) h

/-- An encoded frame validates with its option byte (R137). -/
theorem validate_frame (c : Config) (dev opt : Byte) (p : List Byte) (h : cmd < 0x80) :
    validate c (frame c dev cmd opt p) cmd 0xFE = .ok opt := by
  have hv := validate_ownChecksum c 0xFE dev (BitVec.ofNat 8 (MINFRAME + p.length)) cmd opt p
  rwa [and_7F_of_lt h] at hv

/-- An encoded frame carries its payload from byte 6 on (R136). -/
theorem slice_frame_payload (c : Config) (dev cmd opt : Byte) (p : List Byte) :
    slice (frame c dev cmd opt p) 6 p.length = p :=
  List.take_left' (l₂ := le16 _) rfl

/-- A payload of at most 247 bytes leaves the length representable (R92). -/
theorem frame_lengthByte (c : Config) (dev cmd opt : Byte) {p : List Byte} (h : p.length ≤ 247) :
    (byteOf (frame c dev cmd opt p) 3).toNat = 8 + p.length :=
  Nat.mod_eq_of_lt (by unfold MINFRAME; omega)

/-! ### One bit flipped -/

@[simp] theorem length_flipBit (xs : List Byte) (j k : Nat) : (Claims.flipBit xs j k).length = xs.length :=
  List.length_modify _ _ _

theorem byteOf_flipBit (hj : j < f.length) :
    byteOf (Claims.flipBit f j k) i = if j = i then byteOf f i ^^^ (1#8 <<< k) else byteOf f i := by
  simp only [byteOf, Claims.flipBit, List.getD_eq_getElem?_getD, List.getElem?_modify]
  by_cases hji : j = i
  · subst hji
    simp [hj]
  · simp [hji]

theorem byteOf_flipBit_of_ne (hji : j ≠ i) : byteOf (Claims.flipBit f j k) i = byteOf f i := by
  simp [byteOf, Claims.flipBit, List.getD_eq_getElem?_getD, List.getElem?_modify_ne _ _ hji]

/-- A flip changes exactly the byte it is in. -/
theorem byteOf_flipBit_ne_iff (hj : j < f.length) (hk : k < 8) :
    byteOf (Claims.flipBit f j k) i ≠ byteOf f i ↔ j = i := by
  have hbit : ∀ k < 8, 1#8 <<< k ≠ 0#8 := by decide
  rw [byteOf_flipBit hj]
  by_cases hji : j = i
  · rw [if_pos hji, Ne, xor_left_eq_self_iff]
    exact iff_of_true (hbit k hk) hji
  · simp [hji]

/-- Two bytes differ under a mask exactly where their difference meets the mask. -/
theorem xor_and_ne_iff (x d m : Byte) : (x ^^^ d) &&& m ≠ x &&& m ↔ d &&& m ≠ 0 := by
  have hdistrib : (x ^^^ d) &&& m = (x &&& m) ^^^ (d &&& m) := by
    ext n
    simp [Bool.and_xor_distrib_right]
  rw [hdistrib]
  exact not_congr xor_left_eq_self_iff

/-- A flip of a command byte's bit 7 is masked off; any other is not (R94). -/
theorem maskedByte_flipBit_ne_iff (hj : j < f.length) (hk : k < 8) :
    byteOf (Claims.flipBit f j k) i &&& 0x7F ≠ byteOf f i &&& 0x7F ↔ j = i ∧ k < 7 := by
  have hbit : ∀ k < 8, (1#8 <<< k &&& 0x7F ≠ 0 ↔ k < 7) := by decide
  rw [byteOf_flipBit hj]
  by_cases hji : j = i
  · rw [if_pos hji, xor_and_ne_iff, hbit k hk, and_iff_right hji]
  · simp [hji]

/-- A valid frame passed every check (R133). -/
theorem checks_of_validate_ok (h : validate c f cmd hdr = .ok st) :
    8 ≤ f.length ∧ byteOf f 0 = hdr ∧ byteOf f 1 = hdr ∧ byteOf f 4 &&& 0x7F = cmd ∧ verify c f = true := by
  unfold validate at h
  split_ifs at h with hlen hhdr hcmd hver
  obtain ⟨hhdr0, hhdr1⟩ := not_or.mp hhdr
  exact ⟨Nat.not_lt.mp hlen, not_not.mp hhdr0, not_not.mp hhdr1, not_not.mp hcmd, hver⟩

/-- A half-word is its two bytes (R12). -/
theorem LE16_inj {xs ys : List Byte} {a b : Nat} (h : LE16 xs a = LE16 ys b) :
    byteOf xs (a + 1) = byteOf ys (b + 1) ∧ byteOf xs a = byteOf ys b := by
  have hcomposed : composite (byteOf xs (a + 1)) (byteOf xs a) = composite (byteOf ys (b + 1)) (byteOf ys b) := h
  exact ⟨by simpa using congrArg errorClassOf hcomposed, by simpa using congrArg deviceStatusOf hcomposed⟩

/-- Under the assumption on CRC16, a flipped bit fails the checksum test: in the last two bytes it changes the checksum
received, and before them the one computed (R132, R138). -/
theorem verify_flipBit (hdetect : Claims.DetectsSingleBit c) (hvalid : verify c f = true) (hlen : 8 ≤ f.length)
    (hj : j < f.length) (hk : k < 8) : verify c (Claims.flipBit f j k) = false := by
  have htake : (Claims.flipBit f j k).take (f.length - 2) = Claims.flipBit (f.take (f.length - 2)) j k :=
    List.take_modify _ _ _ _
  rw [verify, decide_eq_true_eq] at hvalid
  rw [verify, decide_eq_false_iff_not, length_flipBit, htake]
  by_cases hbody : j < f.length - 2
  · have hsame : LE16 (Claims.flipBit f j k) (f.length - 2) = LE16 f (f.length - 2) := by
      rw [LE16, byteOf_flipBit_of_ne (by omega), byteOf_flipBit_of_ne (by omega), LE16]
    rw [hsame, hvalid]
    exact (hdetect _ j k (by simp; omega) hk).symm
  · have hsame : Claims.flipBit (f.take (f.length - 2)) j k = f.take (f.length - 2) :=
      List.modify_eq_self (by simp; omega)
    rw [hsame, ← hvalid]
    intro hchecksum
    obtain ⟨hhi, hlo⟩ := LE16_inj hchecksum
    have hlast : j = f.length - 2 ∨ j = f.length - 2 + 1 := by omega
    obtain hj' | hj' := hlast
    · exact (byteOf_flipBit_ne_iff hj hk).mpr hj' hlo
    · exact (byteOf_flipBit_ne_iff hj hk).mpr hj' hhi

/-- A valid frame with one bit flipped fails the header or the command test first, or else the checksum test (R138). -/
theorem validate_flipBit (hdetect : Claims.DetectsSingleBit c) (hvalid : validate c f cmd hdr = .ok st)
    (hj : j < f.length) (hk : k < 8) :
    validate c (Claims.flipBit f j k) cmd hdr =
      if j = 0 ∨ j = 1 ∨ (j = 4 ∧ k < 7) then .error .recv else .error .crc := by
  obtain ⟨hlen, rfl, hheader, rfl, hver⟩ := checks_of_validate_ok hvalid
  have hheaders : (byteOf (Claims.flipBit f j k) 0 ≠ byteOf f 0 ∨ byteOf (Claims.flipBit f j k) 1 ≠ byteOf f 0) ↔
      j = 0 ∨ j = 1 :=
    or_congr (byteOf_flipBit_ne_iff hj hk) (hheader ▸ byteOf_flipBit_ne_iff hj hk)
  rw [validate, length_flipBit, if_neg (Nat.not_lt.mpr hlen), if_congr hheaders rfl rfl,
    if_congr (maskedByte_flipBit_ne_iff hj hk) rfl rfl, verify_flipBit hdetect hver hlen hj hk]
  simp only [ite_or, Bool.false_eq_true, if_false]

end Sys2Proof.Machine

namespace Sys2Proof.Proofs

open Sys2Proof.Machine

/-- Settles O1: the answer of ENCODE, by the payload's length. -/
theorem encodeAnswersTheFrame : Obligations.EncodeAnswersTheFrame := by
  intro dev cmd opt data s r req hp
  have hexec : exec (.encode dev cmd opt data) s = finish (encodeResponse Config.hw dev cmd opt data) s := rfl
  refine ⟨fun hfits => ?_, fun hlong => ?_⟩
  · exact answersOnly_of_exec_eq_finish hp (by rw [hexec, encodeResponse_of_le dev cmd opt hfits]; rfl)
  · exact answersOnly_of_exec_eq_finish hp (by rw [hexec, encodeResponse_of_gt dev cmd opt hlong])

/-- Settles O2: the answer of VALIDATE to a short frame, and to a frame taken apart. -/
theorem validateReportsTheFirstFailingCheck : Obligations.ValidateReportsTheFirstFailingCheck := by
  intro cmd hdr s r req hp
  have hexec (f : List Byte) : exec (.validate f cmd hdr) s = finish (validateResponse Config.hw f cmd hdr) s := rfl
  refine ⟨fun f hshort => ?_, fun h0 h1 id len c st p lo hi => ?_⟩
  · exact answersOnly_of_exec_eq_finish hp (by rw [hexec, validateResponse_of_short hshort])
  · exact answersOnly_of_exec_eq_finish hp (by rw [hexec, validateResponse_parts])

/-- Settles O3: an encoded frame validates, and its bytes are those encoded. -/
theorem validateUndoesEncode : Obligations.ValidateUndoesEncode := by
  intro c dev cmd opt p hcmd hlen
  have hsize : (frame c dev cmd opt p).length - 8 = p.length := by simp
  refine ⟨validate_frame c dev opt p hcmd, rfl, rfl, ?_, ?_⟩
  · rw [hsize, slice_frame_payload]
  · rw [frame_lengthByte c dev cmd opt hlen, frame_length]

/-- Settles O4: which of the three tests the flipped bit fails first. -/
theorem flippedBitNeverValidates : Obligations.FlippedBitNeverValidates :=
  fun _ hdetect _ _ _ hvalid _ _ hj hk => validate_flipBit hdetect hvalid hj hk

/-- Settles O5: the three tests pass whatever the id, the length byte and the command's bit 7. -/
theorem validateIgnoresIdLengthAndTopBit : Obligations.ValidateIgnoresIdLengthAndTopBit :=
  fun c id len cmd st p => validate_ownChecksum c 0xFE id len cmd st p

end Sys2Proof.Proofs
end

section
/-! SUPPORT. A transport operation at its Present step and at its CHECK step, in the terms of the claims
(43_transport.md rules R244, R249, R250): the rule every transport operation follows, read off its `Transaction`. -/

namespace Sys2Proof.Machine

open Sys2Proof.Claims

variable {s : State} {r : Nat} {req : Request} {i : Instr} {op : Transaction} {ok : Bool} {rx : List Byte}

/-- A buffer that holds `xs` reads as `xs` wherever that many bytes are valid (R29). -/
theorem memRead_of_holds {m : Memory} {xs : List Byte} {valid : Nat} (h : Holds m xs) (hle : xs.length ≤ valid) :
    memRead m valid 0 xs.length = .ok xs :=
  memRead_ok (by omega) fun a ha => by rw [Nat.zero_add, h a ha]

/-- An idle block takes an operation whose arguments pass (R249, R236). -/
theorem starts_of_transaction (hop : transactionOf hw i = some op) (ha : op.argsOk = true)
    (hp : s.port = .request r req) (hidle : s.block.busy = false) :
    Starts i s r req op.shape op.tx (firstTarget op.shape op.m) := by
  obtain ⟨buf, hwrite, hnext⟩ := transact_accept (c := hw) hp ha hidle (transaction_tx_length hop ha).2
  exact ⟨buf, (exec_transaction hop s).trans hnext, fun a => by simpa using memWrite_byteAt? hwrite a⟩

/-- A CHECK step answers what the transfer received (R244). -/
theorem ends_of_received (hop : transactionOf hw i = some op) (h : Received s r ok rx) :
    Ends i s r (op.check ok rx) := by
  obtain ⟨hp, htres, hle, hheld⟩ := h
  have hread : memRead s.block.rxbuf s.block.rxcnt 0 s.block.tres.rxLen = .ok rx := by
    rw [htres]
    exact memRead_of_holds hheld hle
  have hnext := transact_check (c := hw) (op := op) hp hread
  rw [htres] at hnext
  exact (exec_transaction hop s).trans hnext

/-- Every transport operation follows the rule its `Transaction` states. -/
theorem followsRule_of_transaction (hop : transactionOf hw i = some op) {argsOk : Prop}
    (hargs : op.argsOk = true ↔ argsOk) :
    FollowsRule i argsOk op.failClass op.sentinel op.shape op.tx (firstTarget op.shape op.m) op.check := by
  intro s r
  refine ⟨fun req hp hbad => ?_, fun req hp hgood hbusy => ?_, fun req hp hgood hidle => ?_, fun ok rx h => ?_⟩
  · have ha : op.argsOk = false := Bool.eq_false_iff.mpr (mt hargs.mp hbad)
    exact (exec_transaction hop s).trans (transact_badArgs hp ha)
  · exact (exec_transaction hop s).trans (transact_busy hp (hargs.mpr hgood) hbusy)
  · exact starts_of_transaction hop (hargs.mpr hgood) hp hidle
  · exact ends_of_received hop h

/-- The generic frame carries its own length and checksum (R100, R131). -/
theorem frame_eq_withChecksum (dev cmd opt : Byte) (p : List Byte) :
    frame hw dev cmd opt p =
      withChecksum ([0xFE, 0xFE, dev, BitVec.ofNat 8 (8 + p.length), cmd, opt] ++ p) := rfl

/-- What an operation does after its round trip is the answer the claims describe (R151, R274, R278). -/
theorem afterRoundTrip_eq_answerOf (cmd : Command) (sentinel : Outputs) (good : Byte → List Byte → Response)
    (ok : Bool) (rx : List Byte) :
    afterRoundTrip hw (hw.command cmd) sentinel ok rx (good · rx) = answerOf cmd sentinel good ok rx := by
  cases ok with
  | false => rfl
  | true =>
    have hround : roundTrip cmd true rx = validate hw rx (hw.command cmd) HDR := rfl
    rw [answerOf, hround, afterRoundTrip, if_pos rfl]
    cases validate hw rx (hw.command cmd) HDR with
    | error e => rfl
    | ok st => rfl

end Sys2Proof.Machine
end

section
/-! PROOF of O7 to O10: register access (41_register_access.md). The typed reads are one template over MEMREAD, the
typed writes are MEMWRITEs of the scalar's low bytes. -/

namespace Sys2Proof.Machine

open Sys2Proof.Claims

variable {i : Instr} {dev wopt : Byte} {addr : HalfWord}

/-! ### MEMREAD and the typed reads -/

theorem memread_check (dev : Byte) (addr : HalfWord) (size : Byte) :
    (memread hw dev addr size).check =
      answerOf .memRead { data := some (List.replicate size.toNat 0xFF) } fun st rx =>
        { status := composite 0 st, outs := { data := some (slice rx 6 size.toNat) } } := by
  funext ok rx
  exact afterRoundTrip_eq_answerOf .memRead _ (fun st rx => success st { data := some (slice rx 6 size.toNat) }) ok rx

/-- Every class of an error is a transport-error bit, and a success has none (R272, R273, R276). -/
theorem isError_errorCode (e : ErrorClass) : isError (composite (hw.errorCode e) 0) = true := by
  simpa [isError] using hw.errorCode_ne e

theorem not_isError_success (st : Byte) : isError (composite 0 st) = false := by
  simp [isError]

/-- The typed-read template: MEMREAD's status, and the payload decoded, or the sentinel on an error (R153). -/
theorem typedRead_check (dev : Byte) (addr : HalfWord) (size : Byte) (sent : Word) (decodeAs : List Byte → Word) :
    (typedRead hw dev addr size sent decodeAs).check =
      answerOf .memRead { value := some sent } fun st rx =>
        { status := composite 0 st, outs := { value := some (decodeAs (slice rx 6 size.toNat)) } } := by
  funext ok rx
  simp only [typedRead, memread_check, answerOf]
  cases roundTrip .memRead ok rx with
  | error e => simp only [isError_errorCode, if_true]
  | ok st => simp only [not_isError_success, Bool.false_eq_true, if_false, Option.getD_some]

/-- A byte of a slice is a byte of the list. -/
theorem byteOf_slice (xs : List Byte) (k : Nat) {j n : Nat} (h : j < n) :
    byteOf (slice xs k n) j = byteOf xs (k + j) := by
  simp only [byteOf, slice, List.getD_eq_getElem?_getD, List.getElem?_take_of_lt h, List.getElem?_drop]

theorem LE16_slice (xs : List Byte) (k : Nat) {j n : Nat} (h : j + 1 < n) :
    LE16 (slice xs k n) j = byteOf xs (k + (j + 1)) ++ byteOf xs (k + j) := by
  rw [LE16, byteOf_slice xs k h, byteOf_slice xs k (by omega)]

theorem typedReadRule_of_typedRead {size : Byte} {sent : Word} {decodeAs value : List Byte → Word}
    (hop : transactionOf hw i = some (typedRead hw dev addr size sent decodeAs))
    (hsize : 1 ≤ size.toNat ∧ size.toNat ≤ MEMREAD_MAX) (hvalue : ∀ rx, decodeAs (slice rx 6 size.toNat) = value rx) :
    TypedReadRule i dev addr size sent value := by
  have hrule := followsRule_of_transaction hop (iff_of_true (decide_eq_true hsize) trivial)
  simp only [typedRead_check, hvalue] at hrule
  exact hrule

/-! ### MEMWRITE and the typed writes -/

theorem memwrite_check (dev : Byte) (addr : HalfWord) (data : List Byte) (wopt : Byte) :
    (memwrite hw dev addr data wopt).check =
      answerOf .memWrite {} fun st _ => { status := composite 0 st, outs := {} } := by
  funext ok rx
  exact afterRoundTrip_eq_answerOf .memWrite {} (fun st _ => success st {}) ok rx

/-- The request of MEMWRITE (R103). -/
theorem memwrite_tx (dev : Byte) (addr : HalfWord) (data : List Byte) (wopt : Byte) :
    (memwrite hw dev addr data wopt).tx =
      withChecksum ([0xFE, 0xFE, dev, BitVec.ofNat 8 (10 + data.length), hw.command .memWrite, wopt,
        addr.extractLsb' 0 8, addr.extractLsb' 8 8] ++ data) := by
  have hlen : 8 + (le16 addr ++ data).length = 10 + data.length := by
    rw [List.length_append, le16_length]
    omega
  rw [memwrite, frame_eq_withChecksum, hlen]
  rfl

theorem writeRule_of_memwrite {data : List Byte} {argsOk : Prop}
    (hop : transactionOf hw i = some (memwrite hw dev addr data wopt))
    (hargs : (1 ≤ data.length ∧ data.length ≤ MEMWRITE_MAX) ↔ argsOk) : WriteRule i argsOk dev addr data wopt := by
  have hrule := followsRule_of_transaction hop (decide_eq_true_iff.trans hargs)
  rw [memwrite_check, memwrite_tx] at hrule
  exact hrule

/-- The low two bytes of a scalar, the low one first (R170, R171). -/
theorem le16_setWidth (v : Word) : le16 (v.setWidth 16) = [v.extractLsb' 0 8, v.extractLsb' 8 8] := by
  simp [le16, BitVec.extractLsb'_setWidth_of_le]

end Sys2Proof.Machine

namespace Sys2Proof.Proofs

open Sys2Proof.Machine

/-- Settles O7: MEMREAD's request, argument check and answer, in the terms of its `Transaction`. -/
theorem memreadFollowsItsRule : Obligations.MemreadFollowsItsRule := by
  intro dev addr size
  have hargs : (memread Claims.hw dev addr size).argsOk = true ↔ size.toNat ≠ 0 ∧ size.toNat < 244 := by
    rw [memread, decide_eq_true_iff, MEMREAD_MAX]
    omega
  have hrule := followsRule_of_transaction (i := .memread dev addr size) rfl hargs
  rw [memread_check] at hrule
  exact hrule

/-- Settles O8: each typed read is the template at its size, and decodes the bytes of the slice. -/
theorem typedReadsFollowTheirRules : Obligations.TypedReadsFollowTheirRules := by
  intro dev addr
  have hone (rx : List Byte) : (byteOf (slice rx 6 1) 0).setWidth 32 = (byteOf rx 6).setWidth 32 := by
    rw [byteOf_slice rx 6 Nat.one_pos]
  have htwo (rx : List Byte) : (LE16 (slice rx 6 2) 0).setWidth 32 = (byteOf rx 7 ++ byteOf rx 6).setWidth 32 := by
    rw [LE16_slice rx 6 (by decide)]
  have hfour (rx : List Byte) :
      LE32 (slice rx 6 4) 0 = (byteOf rx 9 ++ byteOf rx 8) ++ (byteOf rx 7 ++ byteOf rx 6) := by
    rw [LE32, LE16_slice rx 6 (by decide), LE16_slice rx 6 (by decide)]
  exact ⟨typedReadRule_of_typedRead rfl (by decide) hone, typedReadRule_of_typedRead rfl (by decide) htwo,
    typedReadRule_of_typedRead rfl (by decide) htwo, typedReadRule_of_typedRead rfl (by decide) hfour,
    typedReadRule_of_typedRead rfl (by decide) hfour⟩

/-- Settles O9: MEMWRITE's request, argument check and answer, in the terms of its `Transaction`. -/
theorem memwriteFollowsItsRule : Obligations.MemwriteFollowsItsRule := by
  intro dev addr data wopt
  refine writeRule_of_memwrite rfl ?_
  rw [MEMWRITE_MAX]
  omega

/-- Settles O10: each typed write is a MEMWRITE of the scalar's low bytes, which are 1, 2 or 4. -/
theorem typedWritesFollowTheirRules : Obligations.TypedWritesFollowTheirRules := by
  intro dev addr v wopt
  have hone : v.setWidth 8 = v.extractLsb' 0 8 := BitVec.setWidth_eq_extractLsb' (by decide)
  refine ⟨?_, ?_, ?_, ?_, ?_⟩
  · exact hone ▸ writeRule_of_memwrite rfl (by simp [MEMWRITE_MAX])
  · exact le16_setWidth v ▸ writeRule_of_memwrite rfl (by simp [MEMWRITE_MAX])
  · exact le16_setWidth v ▸ writeRule_of_memwrite rfl (by simp [MEMWRITE_MAX])
  · exact writeRule_of_memwrite (data := le32 v) rfl (by simp [MEMWRITE_MAX])
  · exact writeRule_of_memwrite (data := le32 v) rfl (by simp [MEMWRITE_MAX])

end Sys2Proof.Proofs
end

section
/-! SUPPORT. Runs of listed moves, piece by piece: an operation is presented and its request sent (43_transport.md rules
R248, R236, R237), bytes arrive (R233, R239, R241), the CHECK step answers (R244). -/

namespace Sys2Proof.Machine

open Sys2Proof.Claims

variable {s t : State} {rest : List Input} {r : Nat} {req : Request} {i : Instr} {op : Transaction} {rx : List Byte}

/-! ### `after` -/

theorem after_one (s : State) : after 1 s = step s := by
  rw [after]
  cases step s with
  | next t => rfl
  | fault f => rfl
  | refused x => rfl

theorem after_succ (h : step s = .next t) (n : Nat) : after (n + 1) s = after n t := by
  rw [after, h]

/-- A run goes on from where its first part ended. -/
theorem after_add {m : Nat} (h : after m s = .next t) (n : Nat) : after (m + n) s = after n t := by
  induction m generalizing s with
  | zero =>
    cases h
    rw [Nat.zero_add]
  | succ m ih =>
    cases hstep : step s with
    | next u =>
      rw [after_succ hstep] at h
      rw [Nat.add_right_comm, after_succ hstep, ih h]
    | fault f => simp [after, hstep] at h
    | refused x => simp [after, hstep] at h

/-- A step takes the next listed move. -/
theorem step_listed {input : Input} (hin : s.inputs = input :: rest) :
    step s = react input { s with inputs := rest } := by
  rw [step, advance, hin]

/-! ### The request -/

/-- The Present step of an operation that an idle block accepts (R248, R249, R236): the whole next state. -/
theorem step_accept (hop : transactionOf hw i = some op) (ha : op.argsOk = true) (hd : decode req = .ok i)
    (hidle : s.block.busy = false) (hmay : MayPresent s r req) (hin : s.inputs = .present r req :: rest) :
    ∃ buf, memWrite s.block.txbuf 0 op.tx = .ok buf ∧
      step s = .next { s with
        inputs := rest, port := .request r req
        block := (s.block.take ⟨r, req⟩).start op.shape op.tx op.m buf } := by
  obtain ⟨buf, hwrite, hnext⟩ := transact_accept (c := hw) (op := op)
    (s := { s with inputs := rest, port := .request r req }) rfl ha hidle (transaction_tx_length hop ha).2
  refine ⟨buf, hwrite, ?_⟩
  rw [step_present hin hmay, runRequest_ok hd, exec_transaction hop]
  exact hnext

/-- The step that ends a send puts the frame in TXBUF on the line (R232, R237). -/
theorem step_txDone {ok : Bool} {tx : List Byte} (hin : s.inputs = .line (.txDone ok) :: rest)
    (hsend : s.block.tstate = .send) (hlen : s.block.txlen = tx.length) (hheld : Holds s.block.txbuf tx) :
    step s = .next (afterSend ok { s with
      inputs := rest, line := s.line ++ [{ bytes := tx, how := if ok then .completed else .failed }] }) := by
  rw [step_listed hin]
  exact txDone_send (s := { s with inputs := rest }) ok hsend (hlen ▸ memRead_of_holds hheld le_rfl)

/-- An accepted operation whose send completes has its request on the line after two steps (R236, R237). -/
theorem after_requestSent (hop : transactionOf hw i = some op) (ha : op.argsOk = true) (hd : decode req = .ok i)
    (hidle : s.block.busy = false) (hmay : MayPresent s r req)
    (hin : s.inputs = .present r req :: .line (.txDone true) :: rest) :
    ∃ t buf, after 2 s = .next (afterSend true t) ∧
      t.block = (s.block.take ⟨r, req⟩).start op.shape op.tx op.m buf ∧ t.inputs = rest ∧ t.outbox = s.outbox ∧
      t.line = s.line ++ [{ bytes := op.tx, how := .completed }] := by
  obtain ⟨buf, hwrite, haccept⟩ := step_accept hop ha hd hidle hmay hin
  have hsent := (after_succ haccept 1).trans
    ((after_one _).trans (step_txDone rfl rfl rfl (Soundness.holds_of_memWrite hwrite)))
  exact ⟨_, buf, hsent, rfl, rfl, rfl, rfl⟩

/-- After the request of a fixed transfer that expects bytes, the block receives (R237). -/
theorem afterSend_fixed (hshape : s.block.tshape = .fixed) (htgt : s.block.rxtgt ≠ 0) :
    afterSend true s = { s with block := { s.block with tstate := .rxFix } } := by
  simp only [afterSend, if_true, hshape, if_neg htgt]

/-! ### The bytes received -/

/-- The block is in a receive, and `n` more bytes do not pass the count it waits for (R233, R238, R240). -/
structure Awaits (b : Block) (n : Nat) : Prop where
  state : b.tstate = .rxFix ∨ b.tstate = .rxPre ∨ b.tstate = .rxRest
  tgt_of_pre : b.tstate = .rxPre → b.rxtgt = VAR_PREFIX
  fits : b.rxcnt + n ≤ b.rxtgt
  room : b.rxtgt ≤ BUFSIZE

/-- A byte that leaves RXCNT short of RXTGT completes nothing (R239, R241). -/
theorem afterByte_waits (hne : s.block.rxcnt ≠ s.block.rxtgt)
    (hpre : s.block.tstate = .rxPre → s.block.rxtgt = VAR_PREFIX) : afterByte s = .next s := by
  cases ht : s.block.tstate with
  | idle => simp only [afterByte, ht]
  | send => simp only [afterByte, ht]
  | rxFix => simp only [afterByte, ht, if_neg hne]
  | rxPre => simp only [afterByte, ht, if_neg (hpre ht ▸ hne)]
  | rxRest => simp only [afterByte, ht, if_neg hne]

/-- Bytes that arrive in a receive are stored from RXCNT on, and only the last of them can complete it (R233, R239,
R241). -/
theorem after_rxBytes (hne : rx ≠ []) (hawaits : Awaits s.block rx.length)
    (hin : s.inputs = rx.map (fun x => .line (.rxByte x)) ++ rest) :
    ∃ buf, memWrite s.block.rxbuf s.block.rxcnt rx = .ok buf ∧
      after rx.length s = afterByte { s with
        inputs := rest, block := { s.block with rxbuf := buf, rxcnt := s.block.rxcnt + rx.length } } := by
  induction rx generalizing s with
  | nil => exact absurd rfl hne
  | cons x xs ih =>
    obtain ⟨hstate, hpre, hfits, hroom⟩ := hawaits
    rw [List.length_cons] at hfits
    have hlt : s.block.rxcnt < s.block.rxtgt := by omega
    have hcnt : s.block.rxcnt < BUFSIZE := lt_of_lt_of_le hlt hroom
    have hstep : step s = afterByte { s with
        inputs := xs.map (fun x => .line (.rxByte x)) ++ rest, block := Noninterference.withByte s.block x } := by
      rw [step_listed hin]
      exact rxByte_receiving x (receiving_of_rxcnt_lt hstate hlt) hcnt
    have hwrite : memWrite s.block.rxbuf s.block.rxcnt (x :: xs) =
        memWrite (s.block.rxbuf.store s.block.rxcnt x) (s.block.rxcnt + 1) xs := by
      rw [memWrite, if_pos hcnt]
    rw [hwrite]
    cases xs with
    | nil => exact ⟨_, rfl, (after_one s).trans hstep⟩
    | cons y ys =>
      have hshort : s.block.rxcnt + 1 ≠ s.block.rxtgt := by
        rw [List.length_cons] at hfits
        omega
      have hnext := hstep.trans (afterByte_waits hshort hpre)
      have hfits' : s.block.rxcnt + 1 + (y :: ys).length ≤ s.block.rxtgt := by omega
      obtain ⟨buf, hbuf, hafter⟩ := ih (s := { s with
        inputs := _, block := Noninterference.withByte s.block x }) (List.cons_ne_nil y ys)
        ⟨hstate, hpre, hfits', hroom⟩ rfl
      refine ⟨buf, hbuf, (after_succ hnext _).trans (hafter.trans ?_)⟩
      rw [List.length_cons (a := x), Nat.add_comm (y :: ys).length, ← Nat.add_assoc]
      rfl

/-- A fixed receive completes with exactly the bytes it waits for (R239). -/
theorem after_fixedReceive (hstate : s.block.tstate = .rxFix) (hcnt : s.block.rxcnt = 0)
    (htgt : s.block.rxtgt = rx.length) (hne : rx ≠ []) (hroom : rx.length ≤ BUFSIZE)
    (hin : s.inputs = rx.map (fun x => .line (.rxByte x)) ++ rest) :
    ∃ buf, Holds buf rx ∧ after rx.length s = .next (complete true rx.length { s with
      inputs := rest, block := { s.block with rxbuf := buf, rxcnt := rx.length } }) := by
  have hawaits : Awaits s.block rx.length :=
    ⟨.inl hstate, by simp [hstate], by omega, by omega⟩
  obtain ⟨buf, hwrite, hafter⟩ := after_rxBytes hne hawaits hin
  rw [hcnt] at hwrite
  refine ⟨buf, Soundness.holds_of_memWrite hwrite, ?_⟩
  rw [hafter]
  simp only [afterByte, hstate, hcnt, htgt, Nat.zero_add, if_true]

/-! ### The CHECK step -/

/-- The sequencer's turn with a result in RXBUF: the operation in CUR is answered and gives the transport up (R244). -/
theorem step_check {cur : Current} {ok : Bool} (hop : transactionOf hw i = some op) (hd : decode cur.req = .ok i)
    (hseq : s.block.seq = .check) (hcur : s.block.cur = some cur)
    (htres : s.block.tres = { ok := ok, rxLen := rx.length }) (hle : rx.length ≤ s.block.rxcnt)
    (hheld : Holds s.block.rxbuf rx) (hin : s.inputs = .sequencer :: rest) :
    step s = .next (State.deliver
      { s with inputs := rest, port := .resume cur.requester, block := s.block.release }
      cur.requester (op.check ok rx)) := by
  rw [step_listed hin]
  calc sequencerStep { s with inputs := rest }
      = transact hw op { s with inputs := rest, port := .resume cur.requester } :=
        sequencerStep_check (s := { s with inputs := rest }) hseq hcur hd hop
    _ = exec i { s with inputs := rest, port := .resume cur.requester } := (exec_transaction hop _).symm
    _ = _ := ends_of_received hop ⟨rfl, htres, hle, hheld⟩

/-! ### A fixed round trip -/

/-- An operation with a fixed receive, sent and answered with as many bytes as it expects: its response is the one it
gives to those bytes, and its request alone is on the line (R237, R239, R244). -/
theorem after_fixedRoundTrip (hop : transactionOf hw i = some op) (ha : op.argsOk = true) (hshape : op.shape = .fixed)
    (hd : decode req = .ok i) (hidle : s.block.busy = false) (hmay : MayPresent s r req)
    (hlen : rx.length = op.m) (hne : rx ≠ [])
    (hin : s.inputs = .present r req :: (exchange rx ++ .sequencer :: rest)) :
    ∃ t, after (rx.length + 3) s = .next t ∧ t.inputs = rest ∧ t.block.busy = false ∧
      t.outbox = s.outbox ++ [{ requester := r, resp := op.check true rx }] ∧
      t.line = s.line ++ [{ bytes := op.tx, how := .completed }] := by
  have htgt : firstTarget op.shape op.m = rx.length := by rw [hshape, hlen, firstTarget]
  have hnonzero : rx.length ≠ 0 := by simpa using hne
  have hroom : rx.length ≤ BUFSIZE := by
    have hmax := transaction_target_le hop ha
    rw [htgt, MAXFRAME] at hmax
    rw [BUFSIZE]
    omega
  obtain ⟨u, txbuf, hsent, hblock, hinputs, hout, hline⟩ := after_requestSent hop ha hd hidle hmay hin
  have hfixed : u.block.tshape = .fixed := by rw [hblock, start_tshape, hshape]
  have hcnt : u.block.rxcnt = 0 := by rw [hblock, start_rxcnt]
  have hrxtgt : u.block.rxtgt = rx.length := by rw [hblock, start_rxtgt, htgt]
  have hcur : u.block.cur = some ⟨r, req⟩ := by rw [hblock, start_cur, take_cur]
  rw [afterSend_fixed hfixed (hrxtgt ▸ hnonzero)] at hsent
  obtain ⟨rxbuf, hheld, hreceived⟩ := after_fixedReceive
    (s := { u with block := { u.block with tstate := .rxFix } }) rfl hcnt hrxtgt hne hroom hinputs
  have hrun := (after_add hsent (rx.length + 1)).trans ((after_add hreceived 1).trans (after_one _))
  rw [show rx.length + 3 = 2 + (rx.length + 1) by omega, hrun]
  refine ⟨_, step_check hop hd rfl hcur rfl le_rfl hheld rfl, rfl, rfl, ?_, hline⟩
  rw [← hout]
  rfl

end Sys2Proof.Machine
end

section
/-! PROOF of O48: MEMREAD from its Present step to its response (41_register_access.md rule R151). It is a fixed round
trip of 8 + size bytes, and the frame that answers it validates. -/

namespace Sys2Proof.Machine

open Sys2Proof.Claims

/-- Any requester may present to an idle sound block (R25, R248). -/
theorem mayPresent_of_idle {s : State} {r : Nat} {req : Request} (hs : s.Sound) (hidle : s.block.busy = false)
    (hr : r < hw.nreq) (hfits : req.data.length ≤ 256) : MayPresent s r req := by
  have hfree : s.block.cur = none := hs.cur_iff.mpr hidle
  exact ⟨hr, by simp [hfree], hfits⟩

/-- MEMREAD answers a well-formed frame with its payload and its status byte (R102, R151). -/
theorem memread_check_frame (dev : Byte) (addr : HalfWord) {size : Byte} (id st : Byte) {payload : List Byte}
    (hlen : payload.length = size.toNat) :
    (memread hw dev addr size).check true (frame hw id (hw.command .memRead) st payload) =
      { status := composite 0 st, outs := { data := some payload } } := by
  have hvalid : roundTrip .memRead true (frame hw id (hw.command .memRead) st payload) = .ok st :=
    validate_frame hw id st payload (hw.command_lt .memRead)
  rw [memread_check, answerOf, hvalid, ← hlen, slice_frame_payload]

end Sys2Proof.Machine

namespace Sys2Proof.Proofs

open Sys2Proof.Machine Sys2Proof.Claims

/-- Settles O48: a fixed round trip whose answer is a frame that validates. -/
theorem memreadDeliversTheAnsweredPayload : Obligations.MemreadDeliversTheAnsweredPayload := by
  intro s r dev addr size id st payload rest hs hidle hr hlen hmin hmax hin
  have ha : (memread hw dev addr size).argsOk = true := decide_eq_true ⟨hmin, hmax⟩
  have hmay : MayPresent s r (encode (.memread dev addr size)) := mayPresent_of_idle hs hidle hr (Nat.zero_le _)
  have hcount : (frame hw id (hw.command .memRead) st payload).length = 8 + size.toNat := by
    rw [frame_length, hlen]
  obtain ⟨t, hafter, hinputs, hbusy, hout, hline⟩ := after_fixedRoundTrip (i := .memread dev addr size) rfl ha rfl
    (decode_encode _) hidle hmay hcount (List.cons_ne_nil _ _) hin
  rw [hcount, show 8 + size.toNat + 3 = size.toNat + 11 by omega] at hafter
  rw [memread_check_frame dev addr id st hlen] at hout
  exact ⟨t, hafter, hinputs, hbusy, hout, hline⟩

end Sys2Proof.Proofs
end

section
/-! SUPPORT. A variable-length receive that completes (43_transport.md rules R240, R241): the first four bytes, the last of
which declares how long the frame is, and the remainder. -/

namespace Sys2Proof.Machine

open Sys2Proof.Claims

variable {s : State} {rest : List Input} {r : Nat} {req : Request} {i : Instr} {op : Transaction} {rx : List Byte}

/-- A MemWrite of two runs of bytes writes the second where the first ended (R13). -/
theorem memWrite_append {m m' : Memory} {a : Nat} {xs : List Byte} (h : memWrite m a xs = .ok m') (ys : List Byte) :
    memWrite m a (xs ++ ys) = memWrite m' (a + xs.length) ys := by
  induction xs generalizing m a with
  | nil =>
    cases h
    rfl
  | cons x xs ih =>
    have ha : a < BUFSIZE := by
      by_contra hout
      simp only [memWrite, if_neg hout, reduceCtorEq] at h
    rw [memWrite, if_pos ha] at h
    rw [List.cons_append, memWrite, if_pos ha, ih h, List.length_cons, Nat.add_assoc, Nat.add_comm 1]

/-- After the request of a variable transfer, the block receives its first four bytes (R237). -/
theorem afterSend_var (hshape : s.block.tshape = .var) :
    afterSend true s = { s with block := { s.block with tstate := .rxPre } } := by
  simp only [afterSend, if_true, hshape]

/-- Byte 3 declares a length a frame can have: the remainder is received up to it (R241). -/
theorem declaredLength_frame {d : Byte} (hcnt : s.block.rxcnt = VAR_PREFIX) (hd : s.block.rxbuf.byteAt? 3 = some d)
    (hmin : MINFRAME ≤ d.toNat) :
    declaredLength s = .next { s with block := { s.block with rxtgt := d.toNat, tstate := .rxRest } } := by
  have hread : memRead s.block.rxbuf s.block.rxcnt 3 1 = .ok [d] := by
    simp only [memRead, hcnt, hd, VAR_PREFIX, Nat.reduceLT, if_true]
  have hlong : ¬ (byteOf [d] 0).toNat < MINFRAME := not_lt.mpr hmin
  simp only [declaredLength, hread, orFault, if_neg hlong]
  rfl

/-- The first four bytes arrive, and the fourth declares a length a frame can have (R240, R241). -/
theorem after_lengthBytes (hstate : s.block.tstate = .rxPre) (hcnt : s.block.rxcnt = 0) (htgt : s.block.rxtgt = 4)
    (hlen : rx.length = 4) (hmin : 8 ≤ (byteOf rx 3).toNat)
    (hin : s.inputs = rx.map (fun x => .line (.rxByte x)) ++ rest) :
    ∃ buf, memWrite s.block.rxbuf 0 rx = .ok buf ∧ after 4 s = .next { s with
      inputs := rest
      block := { s.block with
        rxbuf := buf, rxcnt := 4, rxtgt := (byteOf rx 3).toNat, tstate := .rxRest } } := by
  have hawaits : Awaits s.block rx.length := ⟨.inr (.inl hstate), fun _ => htgt, by omega, htgt ▸ by decide⟩
  have hne : rx ≠ [] := List.ne_nil_of_length_eq_add_one hlen
  obtain ⟨buf, hwrite, hafter⟩ := after_rxBytes hne hawaits hin
  rw [hcnt] at hwrite
  have hlast : buf.byteAt? 3 = some (byteOf rx 3) := by
    rw [Soundness.holds_of_memWrite hwrite 3 (by omega), byteOf, List.getD_eq_getElem?_getD,
      List.getElem?_eq_getElem (by omega), Option.getD_some]
  refine ⟨buf, hwrite, ?_⟩
  rw [← hlen, hafter]
  simp only [afterByte, hstate, hcnt, hlen, Nat.zero_add, VAR_PREFIX, if_true]
  exact declaredLength_frame rfl hlast hmin

/-- The bytes up to the declared length arrive, and complete the receive (R241). -/
theorem after_remainder (hstate : s.block.tstate = .rxRest) (htgt : s.block.rxcnt + rx.length = s.block.rxtgt)
    (hne : rx ≠ []) (hroom : s.block.rxtgt ≤ BUFSIZE)
    (hin : s.inputs = rx.map (fun x => .line (.rxByte x)) ++ rest) :
    ∃ buf, memWrite s.block.rxbuf s.block.rxcnt rx = .ok buf ∧
      after rx.length s = .next (complete true s.block.rxtgt { s with
        inputs := rest, block := { s.block with rxbuf := buf, rxcnt := s.block.rxtgt } }) := by
  have hawaits : Awaits s.block rx.length := ⟨.inr (.inr hstate), by simp [hstate], htgt.le, hroom⟩
  obtain ⟨buf, hwrite, hafter⟩ := after_rxBytes hne hawaits hin
  refine ⟨buf, hwrite, ?_⟩
  rw [hafter]
  simp only [afterByte, hstate, htgt, if_true]

/-- A variable-length receive completes with exactly the bytes its fourth byte declares (R241). -/
theorem after_variableReceive (hstate : s.block.tstate = .rxPre) (hcnt : s.block.rxcnt = 0)
    (htgt : s.block.rxtgt = 4) (hmin : 8 ≤ rx.length) (hdecl : (byteOf rx 3).toNat = rx.length)
    (hin : s.inputs = rx.map (fun x => .line (.rxByte x)) ++ rest) :
    ∃ buf, Holds buf rx ∧ after rx.length s = .next (complete true rx.length { s with
      inputs := rest
      block := { s.block with rxbuf := buf, rxcnt := rx.length, rxtgt := rx.length, tstate := .rxRest } }) := by
  obtain ⟨pre, post, rfl, hpre⟩ : ∃ pre post, rx = pre ++ post ∧ pre.length = 4 :=
    ⟨rx.take 4, rx.drop 4, (List.take_append_drop 4 rx).symm, List.length_take_of_le (by omega)⟩
  have hbyte : byteOf pre 3 = byteOf (pre ++ post) 3 := by
    rw [byteOf, byteOf, List.getD_append _ _ _ _ (by omega)]
  rw [List.length_append] at hmin hdecl
  rw [List.map_append, List.append_assoc] at hin
  obtain ⟨buf, hwrite, hfirst⟩ := after_lengthBytes hstate hcnt htgt hpre (by rw [hbyte, hdecl]; exact hmin) hin
  rw [hbyte, hdecl] at hfirst
  have hroom : pre.length + post.length ≤ BUFSIZE := by
    rw [← hdecl]
    exact (byteOf (pre ++ post) 3).isLt.le
  obtain ⟨buf', hwrite', hrest⟩ := after_remainder (s := { s with
      inputs := post.map (fun x => .line (.rxByte x)) ++ rest
      block := { s.block with
        rxbuf := buf, rxcnt := 4, rxtgt := pre.length + post.length, tstate := .rxRest } })
    rfl (by rw [hpre]) (List.ne_nil_of_length_pos (by omega)) hroom rfl
  have hall : memWrite s.block.rxbuf 0 (pre ++ post) = .ok buf' := by
    rw [memWrite_append hwrite, Nat.zero_add, hpre, hwrite']
  refine ⟨buf', Soundness.holds_of_memWrite hall, ?_⟩
  rw [List.length_append, hpre, after_add hfirst, hrest, hpre]

/-- An operation with a variable-length receive, sent and answered with a frame as long as it declares: its response is the
one it gives to those bytes, and its request alone is on the line (R237, R241, R244). -/
theorem after_variableRoundTrip (hop : transactionOf hw i = some op) (ha : op.argsOk = true) (hshape : op.shape = .var)
    (hd : decode req = .ok i) (hidle : s.block.busy = false) (hmay : MayPresent s r req)
    (hmin : 8 ≤ rx.length) (hdecl : (byteOf rx 3).toNat = rx.length)
    (hin : s.inputs = .present r req :: (exchange rx ++ .sequencer :: rest)) :
    ∃ t, after (rx.length + 3) s = .next t ∧ t.inputs = rest ∧ t.block.busy = false ∧
      t.outbox = s.outbox ++ [{ requester := r, resp := op.check true rx }] ∧
      t.line = s.line ++ [{ bytes := op.tx, how := .completed }] := by
  obtain ⟨u, txbuf, hsent, hblock, hinputs, hout, hline⟩ := after_requestSent hop ha hd hidle hmay hin
  have hvar : u.block.tshape = .var := by rw [hblock, start_tshape, hshape]
  have hcnt : u.block.rxcnt = 0 := by rw [hblock, start_rxcnt]
  have htgt : u.block.rxtgt = 4 := by rw [hblock, start_rxtgt, hshape, firstTarget]
  have hcur : u.block.cur = some ⟨r, req⟩ := by rw [hblock, start_cur, take_cur]
  rw [afterSend_var hvar] at hsent
  obtain ⟨rxbuf, hheld, hreceived⟩ := after_variableReceive
    (s := { u with block := { u.block with tstate := .rxPre } }) rfl hcnt htgt hmin hdecl hinputs
  have hrun := (after_add hsent (rx.length + 1)).trans ((after_add hreceived 1).trans (after_one _))
  rw [show rx.length + 3 = 2 + (rx.length + 1) by omega, hrun]
  refine ⟨_, step_check hop hd rfl hcur rfl le_rfl hheld rfl, rfl, rfl, ?_, hline⟩
  rw [← hout]
  rfl

end Sys2Proof.Machine
end

section
/-! SUPPORT. The motion operations' rules in the terms of the claims (42_motion.md): a field set's size, the answer to a
read-back, and what the MOTORWRITE forms share. -/

namespace Sys2Proof.Machine

open Sys2Proof.Claims

/-- A field's bit is its place in canonical order, so the selected fields are the set bits (R110, R191). -/
theorem popcount8_eq_setBits (mask : Byte) : popcount8 mask = setBits mask := by
  have hindices : List.range 8 = Field.all.map Field.index := rfl
  rw [setBits, hindices, List.filter_map, List.length_map]
  rfl

theorem fieldCount_eq (mask : Byte) : fieldCount mask = 2 * setBits mask := by
  rw [fieldCount, popcount8_eq_setBits]

/-- MotionFinish is the answer the claims describe (R194, R196, R197, R199, R200). -/
theorem motionFinish_eq_answerOf (cmd : Command) (mask cmode : Byte) :
    motionFinish hw (hw.command cmd) mask cmode = answerOf cmd readBackSentinel (readBack mask cmode) := by
  have hvalid (st : Byte) (rx : List Byte) : readBack mask cmode st rx =
      if rx.length ≠ expectedReadBack mask then
        decodeFailed hw st { sample := some sentinelSample, tswState := some (torqueSwitchOf rx) }
      else
        success st
          { sample := some (decodeSample hw.posCtrlMask mask cmode rx), tswState := some (torqueSwitchOf rx) } := by
    rw [ite_not, expectedReadBack, fieldCount_eq]
    rfl
  funext ok rx
  rw [← afterRoundTrip_eq_answerOf]
  simp only [hvalid]
  rfl

theorem motorread_check (dev mask cmode : Byte) :
    (motorread hw dev mask cmode).check = answerOf .motorRead readBackSentinel (readBack mask cmode) :=
  motionFinish_eq_answerOf .motorRead mask cmode

/-- A response with no payload answers the device status alone (R104, R109). -/
theorem acknowledged_eq_answerOf (cmd : Command) :
    acknowledged hw (hw.command cmd) = answerOf cmd {} fun st _ => { status := composite 0 st, outs := {} } := by
  funext ok rx
  exact afterRoundTrip_eq_answerOf cmd {} (fun st _ => success st {}) ok rx

/-- What the MOTORWRITE forms share follows the claims' rule, with and without a read-back (R203, R206). -/
theorem motorwriteRule_of_motorwrite {i : Instr} {argsOk : Bool} {tx : List Byte} {mask cmode : Byte}
    (hop : transactionOf hw i = some (motorwrite hw argsOk tx mask cmode)) {p : Prop} (hargs : argsOk = true ↔ p) :
    MotorwriteRule i p mask cmode tx := by
  have hrule := followsRule_of_transaction hop hargs
  rw [MotorwriteRule]
  split
  · rename_i hmask
    have hnone : mask = NORETURN := hmask
    simp only [motorwrite, if_pos hnone, acknowledged_eq_answerOf] at hrule
    exact hrule
  · rename_i hmask
    have hsome : mask ≠ NORETURN := hmask
    simp only [motorwrite, if_neg hsome, motionFinish_eq_answerOf] at hrule
    exact hrule

/-- The first targets take the first bytes, two each (R108, R207). -/
theorem take_flatMap_le16 (n : Nat) (ts : List HalfWord) :
    (ts.take n).flatMap le16 = (ts.flatMap le16).take (2 * n) := by
  induction ts generalizing n with
  | nil => simp
  | cons t ts ih =>
    cases n with
    | zero => rfl
    | succ n =>
      rw [List.take_succ_cons, List.flatMap_cons, ih, List.flatMap_cons, Nat.mul_succ, Nat.add_comm,
        ← le16_length t, List.take_length_add_append]

/-- The request of MOTORWRITE_T (R108). -/
theorem motorwriteT_tx (dev n : Byte) (t0 t1 t2 : HalfWord) (mask cmode : Byte) :
    (motorwriteT hw dev n t0 t1 t2 mask cmode).tx =
      withChecksum ([0xFE, 0xFE, dev, BitVec.ofNat 8 (8 + 2 * min n.toNat 3), hw.command .motorWrite, mask] ++
        [t0.extractLsb' 0 8, t0.extractLsb' 8 8, t1.extractLsb' 0 8, t1.extractLsb' 8 8, t2.extractLsb' 0 8,
          t2.extractLsb' 8 8].take (2 * n.toNat)) := by
  have hcount : (([t0, t1, t2].take n.toNat).flatMap le16).length = 2 * min n.toNat 3 := by
    rw [flatMap_le16_length, List.length_take]
    rfl
  rw [motorwriteT, motorwrite, frame_eq_withChecksum, hcount, take_flatMap_le16]
  rfl

/-- The payload of a read-back: the torque-switch byte and the selected fields in canonical order (R106, R110). -/
def readBackPayload (mask tsw : Byte) (g : Field → HalfWord) : List Byte :=
  tsw :: (Field.all.filter (·.selected mask)).flatMap fun x => le16 (g x)

theorem readBackPayload_length (mask tsw : Byte) (g : Field → HalfWord) :
    (readBackPayload mask tsw g).length = 1 + 2 * setBits mask := by
  rw [readBackPayload, List.length_cons, flatMap_field_length, ← popcount8_eq_setBits, Nat.add_comm]
  rfl

/-- MOTORREAD answers a well-formed read-back with the device status byte, the torque-switch byte and every selected field
in its slot (R106, R194, R200). -/
theorem motorread_check_frame (dev mask cmode id st tsw : Byte) (g : Field → HalfWord) :
    ∃ sample, (motorread hw dev mask cmode).check true
        (frame hw id (hw.command .motorRead) st (readBackPayload mask tsw g)) =
          { status := composite 0 st, outs := { sample := some sample, tswState := some tsw } } ∧
      ∀ f : Field, sample.slot f =
        if mask.getLsbD f.index then decodeField hw.posCtrlMask f (g f) cmode else 0x7FFF := by
  set rx := frame hw id (hw.command .motorRead) st (readBackPayload mask tsw g) with hrx
  have hvalid : roundTrip .motorRead true rx = .ok st := validate_frame hw id st _ (hw.command_lt .motorRead)
  have hlen : rx.length = 9 + 2 * setBits mask := by
    rw [hrx, frame_length, readBackPayload_length]
    omega
  have hlong : 9 ≤ rx.length := by omega
  have htsw : byteOf rx 6 = tsw := rfl
  obtain ⟨tail, hparts⟩ : ∃ tail, rx = [0xFE, 0xFE, id, BitVec.ofNat 8 (8 + (readBackPayload mask tsw g).length),
      hw.command .motorRead, st] ++ [tsw] ++ ((Field.all.filter (·.selected mask)).flatMap fun x => le16 (g x)) ++ tail :=
    ⟨_, rfl⟩
  refine ⟨decodeSample hw.posCtrlMask mask cmode rx, ?_, fun f => ?_⟩
  · rw [motorread_check, answerOf, hvalid]
    simp only [readBack, if_pos hlen, if_pos hlong, htsw]
  · rw [hparts]
    exact Proofs.readBackFieldsDecodeInCanonicalOrder hw.posCtrlMask mask cmode g _ tail tsw rfl f

end Sys2Proof.Machine
end

section
/-! PROOF of O11 to O16 and O49: the motion operations (42_motion.md). -/

namespace Sys2Proof.Proofs

open Sys2Proof.Machine Sys2Proof.Claims

/-- Settles O49: a variable round trip whose answer is a well-formed read-back. -/
theorem motorreadDeliversTheSelectedFields : Obligations.MotorreadDeliversTheSelectedFields := by
  intro s r dev mask cmode id st tsw g rest hs hidle hr hin
  obtain ⟨sample, hcheck, hslots⟩ := motorread_check_frame dev mask cmode id st tsw g
  have hmay : MayPresent s r (encode (.motorread dev mask cmode)) := mayPresent_of_idle hs hidle hr (Nat.zero_le _)
  have hbits : setBits mask ≤ 8 := List.length_filter_le _ _
  have hlen := readBackPayload_length mask tsw g
  have hdecl := frame_lengthByte hw id (hw.command .motorRead) st (p := readBackPayload mask tsw g) (by omega)
  rw [← frame_length hw id (hw.command .motorRead) st] at hdecl
  obtain ⟨t, hafter, hinputs, hbusy, hout, -⟩ := after_variableRoundTrip (i := .motorread dev mask cmode) rfl rfl rfl
    (decode_encode _) hidle hmay (by rw [frame_length]; omega) hdecl hin
  rw [frame_length, hlen, show 8 + (1 + 2 * setBits mask) + 3 = 12 + 2 * setBits mask by omega] at hafter
  rw [hcheck] at hout
  exact ⟨t, sample, hafter, hinputs, hbusy, hout, hslots⟩

/-- Settles O11: FIELDCOUNT is `finish` alone, and a field set's size is twice its set bits. -/
theorem fieldcountDoublesTheSelectedBits : Obligations.FieldcountDoublesTheSelectedBits := by
  intro mask s r req hp
  rw [← fieldCount_eq]
  exact answersOnly_of_exec_eq_finish hp rfl

/-- Settles O12: MOTORREAD's request and answer, in the terms of its `Transaction`. -/
theorem motorreadFollowsItsRule : Obligations.MotorreadFollowsItsRule := by
  intro dev mask cmode
  have hrule := followsRule_of_transaction (i := .motorread dev mask cmode) rfl (iff_of_true rfl trivial)
  rw [motorread_check] at hrule
  exact hrule

/-- Settles O13: the torque-switch form of MOTORWRITE, with R111's states listed. -/
theorem motorwriteSwitchFollowsItsRule : Obligations.MotorwriteSwitchFollowsItsRule := by
  intro dev tsw mask cmode
  have hargs : decide (tsw ∈ TSW_SET) = true ↔ tsw = 0x01 ∨ tsw = 0x02 ∨ tsw = 0x04 ∨ tsw = 0x08 := by
    simp [TSW_SET, TORQUE_ON, TORQUE_FREE, TORQUE_BRAKE, TORQUE_HOLD]
  exact motorwriteRule_of_motorwrite rfl hargs

/-- Settles O14: the target form of MOTORWRITE, with its request taken apart. -/
theorem motorwriteTargetsFollowsItsRule : Obligations.MotorwriteTargetsFollowsItsRule := by
  intro dev n t0 t1 t2 mask cmode
  rw [← motorwriteT_tx dev n t0 t1 t2 mask cmode]
  exact motorwriteRule_of_motorwrite rfl decide_eq_true_iff

/-- Settles O15: each entry point is the target form at its fixed count, which passes the argument check. -/
theorem targetEntryPointsFollowTheirRules : Obligations.TargetEntryPointsFollowTheirRules := by
  intro dev t0 t1 t2 mask cmode
  exact ⟨motorwriteRule_of_motorwrite rfl (by decide), motorwriteRule_of_motorwrite rfl (by decide),
    motorwriteRule_of_motorwrite rfl (by decide)⟩

/-- Settles O16: widening without sign keeps the natural value, widening by sign keeps the integer value. -/
theorem fieldDecodeExtendsBySignRule : Obligations.FieldDecodeExtendsBySignRule := by
  intro pos cmode raw
  have hunsigned : (raw.setWidth 32).toInt = (raw.toNat : Int) := by
    have hsmall : raw.toNat < 65536 := raw.isLt
    rw [BitVec.toInt_setWidth]
    exact Int.bmod_eq_of_le (by omega) (by omega)
  have hsigned : (raw.signExtend 32).toInt = raw.toInt := BitVec.toInt_signExtend_of_le (by decide)
  refine ⟨?_, hunsigned, fun f hpos hvolt => ?_⟩
  · rw [decodeField]
    split
    · exact hsigned
    · exact hunsigned
  · cases f with
    | position => exact absurd rfl hpos
    | voltage => exact absurd rfl hvolt
    | speed => exact hsigned
    | current => exact hsigned
    | torque => exact hsigned
    | pwm => exact hsigned
    | motorTemp => exact hsigned
    | cpuTemp => exact hsigned

end Sys2Proof.Proofs
end

section
/-! SUPPORT. The line's moves (43_transport.md rules R232 to R244): when the block receives, everything each move can
do, and the CHECK step of a sound block. -/

namespace Sys2Proof.Machine

open Sys2Proof.Claims (StoresByte)

variable {s t : State} {b : Block} {rest : List Input}

/-! ### When the block receives -/

/-- The block waits for a byte in a receive state that is short of RXTGT (R233). -/
theorem receiving_iff : receiving b = true ↔
    (b.tstate = .rxFix ∨ b.tstate = .rxPre ∨ b.tstate = .rxRest) ∧ b.rxcnt < b.rxtgt := by
  refine ⟨fun h => ⟨?_, rxcnt_lt_of_receiving h⟩, fun ⟨hrx, hlt⟩ => receiving_of_rxcnt_lt hrx hlt⟩
  cases ht : b.tstate with
  | idle => exact absurd ht (tstate_of_receiving h)
  | send => simp only [receiving, ht, Bool.false_eq_true] at h
  | rxFix => exact .inl rfl
  | rxPre => exact .inr (.inl rfl)
  | rxRest => exact .inr (.inr rfl)

/-- A transfer in progress is sending or waits for a byte (R24, R236 to R241). -/
theorem Block.Sound.send_or_receiving (hs : b.Sound) (h : b.tstate ≠ .idle) :
    b.tstate = .send ∨ receiving b = true := by
  obtain ⟨-, -, op, -, -, -, hphase⟩ := hs.current_of_busy (hs.busy_of_transfer h)
  cases ht : b.tstate <;> simp only [Phase, ht] at hphase
  case idle => exact absurd ht h
  case send => exact .inl rfl
  case rxFix =>
    obtain ⟨-, -, hlt⟩ := hphase
    exact .inr (receiving_of_rxcnt_lt (.inl ht) hlt)
  case rxPre =>
    obtain ⟨-, -, hlt⟩ := hphase
    exact .inr (receiving_of_rxcnt_lt (.inr (.inl ht)) hlt)
  case rxRest =>
    obtain ⟨-, -, -, hlt, -⟩ := hphase
    exact .inr (receiving_of_rxcnt_lt (.inr (.inr ht)) hlt)

/-! ### The send ends -/

/-- After the request of an operation with no receive, the transfer is complete (R237). -/
theorem afterSend_sendOnly (hshape : s.block.tshape = .sendOnly) : afterSend true s = complete true 0 s := by
  simp only [afterSend, if_true, hshape]

/-- A fixed transfer that expects no byte is complete once it is sent (R237). -/
theorem afterSend_fixed_none (hshape : s.block.tshape = .fixed) (htgt : s.block.rxtgt = 0) :
    afterSend true s = complete true 0 s := by
  simp only [afterSend, if_true, hshape, htgt]

/-- Everything the end of a send can do: the transfer completes, or its receive begins (R237). -/
theorem afterSend_cases (ok : Bool) (s : State) :
    (∃ ok', afterSend ok s = complete ok' 0 s) ∨
      ∃ rx, (rx = .rxFix ∨ rx = .rxPre) ∧ afterSend ok s = { s with block := { s.block with tstate := rx } } := by
  cases ok with
  | false => exact .inl ⟨false, rfl⟩
  | true =>
    cases hshape : s.block.tshape with
    | sendOnly => exact .inl ⟨true, afterSend_sendOnly hshape⟩
    | var => exact .inr ⟨_, .inr rfl, afterSend_var hshape⟩
    | fixed =>
      by_cases htgt : s.block.rxtgt = 0
      · exact .inl ⟨true, afterSend_fixed_none hshape htgt⟩
      · exact .inr ⟨_, .inl rfl, afterSend_fixed hshape htgt⟩

/-! ### A byte arrives -/

/-- The step that receives a byte stores it at RXCNT and goes on as the receive state says (R233, R239, R241). -/
theorem step_rxByte {x : Byte} (hin : s.inputs = .line (.rxByte x) :: rest) (hr : receiving s.block = true)
    (hroom : s.block.rxtgt ≤ BUFSIZE) :
    step s = afterByte { s with inputs := rest, block := Noninterference.withByte s.block x } := by
  rw [step_listed hin]
  exact rxByte_receiving (s := { s with inputs := rest }) x hr (lt_of_lt_of_le (rxcnt_lt_of_receiving hr) hroom)

/-- The stored byte is read at RXCNT, and every other offset reads as before (R233). -/
theorem storesByte_withByte (b : Block) (x : Byte) : StoresByte b x (Noninterference.withByte b x).rxbuf :=
  fun a => byteAt?_store _ _ a x

/-- A declared length that no frame can have fails the transfer with the bytes so far (R241). -/
theorem declaredLength_short {d : Byte} (hcnt : s.block.rxcnt = VAR_PREFIX) (hd : s.block.rxbuf.byteAt? 3 = some d)
    (hshort : d.toNat < MINFRAME) : declaredLength s = .next (complete false VAR_PREFIX s) := by
  have hread : memRead s.block.rxbuf s.block.rxcnt 3 1 = .ok [d] := by
    simp only [memRead, hcnt, hd, VAR_PREFIX, Nat.reduceLT, if_true]
  have hbyte : (byteOf [d] 0).toNat < MINFRAME := hshort
  simp only [declaredLength, hread, orFault, if_pos hbyte]

/-- Everything a receive can do once a byte has been stored: wait, complete, or take the declared length (R239,
R241). -/
theorem afterByte_cases (ht : afterByte s = .next t) :
    t = s ∨ (∃ ok n, t = complete ok n s) ∨
      ∃ n, t = { s with block := { s.block with rxtgt := n, tstate := .rxRest } } := by
  have hdeclared (ht : declaredLength s = .next t) : (∃ ok n, t = complete ok n s) ∨
      ∃ n, t = { s with block := { s.block with rxtgt := n, tstate := .rxRest } } := by
    obtain ⟨d, -, ht⟩ := LineRecord.orFault_eq_next ht
    dsimp only at ht
    split at ht
    · exact .inl ⟨_, _, (Host.Outcome.next.inj ht).symm⟩
    · exact .inr ⟨_, (Host.Outcome.next.inj ht).symm⟩
  unfold afterByte at ht
  split at ht
  · split at ht
    · exact .inr (.inl ⟨_, _, (Host.Outcome.next.inj ht).symm⟩)
    · exact .inl (Host.Outcome.next.inj ht).symm
  · split at ht
    · exact .inr (hdeclared ht)
    · exact .inl (Host.Outcome.next.inj ht).symm
  · split at ht
    · exact .inr (.inl ⟨_, _, (Host.Outcome.next.inj ht).symm⟩)
    · exact .inl (Host.Outcome.next.inj ht).symm
  · exact .inl (Host.Outcome.next.inj ht).symm
  · exact .inl (Host.Outcome.next.inj ht).symm

/-! ### A timeout -/

/-- How many bytes a transfer that times out delivers: a fixed receive those that came, a variable one none before its
first four are in, and those four after it (R239, R241). -/
def timeoutLength (b : Block) : Nat :=
  match b.tstate with
  | .rxFix => b.rxcnt
  | .rxRest => VAR_PREFIX
  | .rxPre => 0
  | .idle => 0
  | .send => 0

/-- A timeout fails the transfer in every receive state (R234, R239, R241). -/
theorem rxTimeout_receiving (hr : receiving s.block = true) :
    rxTimeout s = .next (complete false (timeoutLength s.block) s) := by
  obtain ⟨ht | ht | ht, -⟩ := receiving_iff.mp hr
  · simp only [rxTimeout, if_pos hr, timeoutLength, ht]
  · simp only [rxTimeout, if_pos hr, timeoutLength, ht]
  · simp only [rxTimeout, if_pos hr, timeoutLength, ht]

theorem step_rxTimeout (hin : s.inputs = .line .rxTimeout :: rest) (hr : receiving s.block = true) :
    step s = .next (complete false (timeoutLength s.block) { s with inputs := rest }) := by
  rw [step_listed hin]
  exact rxTimeout_receiving (s := { s with inputs := rest }) hr

/-! ### The sequencer's turn -/

/-- The CHECK step of a sound block answers the operation in CUR and gives the transport up (R13, R244). -/
theorem sequencerStep_answers (hs : s.Sound) (hseq : s.block.seq = .check) :
    ∃ cur resp, s.block.cur = some cur ∧ sequencerStep s =
      .next (State.deliver { s with port := .resume cur.requester, block := s.block.release } cur.requester resp) := by
  obtain ⟨cur, i, op, hcur, hd, hop, -⟩ := hs.current_of_busy (hs.busy_of_check hseq)
  obtain ⟨rx, hread⟩ := hs.result_of_check hseq
  refine ⟨cur, op.check s.block.tres.ok rx, hcur, ?_⟩
  rw [sequencerStep_check hseq hcur hd hop]
  exact transact_check (s := { s with port := .resume cur.requester }) rfl hread

end Sys2Proof.Machine
end

section
/-! PROOF of O43: an accepted operation finishes (43_transport.md rules R235, R248, R253). Each move of the line lessens
the steps that an operation may still take, whatever the line draws, and the CHECK step answers it. -/

namespace Sys2Proof.Machine

open Sys2Proof.Claims

variable {s t : State} {b : Block} {move : LineMove}

/-- The most steps that an operation in progress may still take: its CHECK step, before it a byte for each place of the
longest frame that is not received yet, and before those the end of its send. -/
def stepsLeft (b : Block) : Nat :=
  match b.tstate with
  | .idle => 1
  | .send => 257
  | .rxFix => 256 - b.rxcnt
  | .rxPre => 256 - b.rxcnt
  | .rxRest => 256 - b.rxcnt

theorem stepsLeft_idle (ht : b.tstate = .idle) : stepsLeft b = 1 := by
  simp only [stepsLeft, ht]

theorem stepsLeft_send (ht : b.tstate = .send) : stepsLeft b = 257 := by
  simp only [stepsLeft, ht]

theorem stepsLeft_receive (ht : b.tstate = .rxFix ∨ b.tstate = .rxPre ∨ b.tstate = .rxRest) :
    stepsLeft b = 256 - b.rxcnt := by
  obtain ht | ht | ht := ht
  · simp only [stepsLeft, ht]
  · simp only [stepsLeft, ht]
  · simp only [stepsLeft, ht]

theorem stepsLeft_le (b : Block) : stepsLeft b ≤ 257 := by
  unfold stepsLeft
  split <;> omega

theorem stepsLeft_complete (ok : Bool) (n : Nat) (s : State) : stepsLeft (complete ok n s).block = 1 := rfl

/-- The oracle's move is the end of a send, or a byte or the timeout of a receive (R66). -/
theorem enabled_of_oracleMove {k : Nat} (hmove : oracleMove b k = some move) :
    (b.tstate = .send ∧ ∃ ok, move = .txDone ok) ∨
      (receiving b = true ∧ (move = .rxTimeout ∨ ∃ x, move = .rxByte x)) := by
  cases hr : receiving b with
  | true =>
    rw [oracleMove_receiving hr, Option.some.injEq] at hmove
    subst hmove
    split
    · exact .inr ⟨rfl, .inl rfl⟩
    · exact .inr ⟨rfl, .inr ⟨_, rfl⟩⟩
  | false =>
    cases ht : b.tstate <;> simp [oracleMove, ht, hr] at hmove
    case send => exact .inl ⟨rfl, _, hmove.symm⟩

/-- After a send there is at most a whole receive to come (R237). -/
theorem inputs_and_stepsLeft_afterSend (ok : Bool) (s : State) :
    (afterSend ok s).inputs = s.inputs ∧ stepsLeft (afterSend ok s).block < 257 := by
  obtain ⟨ok', hnext⟩ | ⟨rx, hrx, hnext⟩ := afterSend_cases ok s
  · rw [hnext, stepsLeft_complete]
    exact ⟨rfl, by omega⟩
  · rw [hnext, stepsLeft_receive (by tauto)]
    exact ⟨rfl, by omega⟩

/-- A stored byte counts, whether or not it completes the receive (R239, R241). -/
theorem inputs_and_stepsLeft_afterByte
    (hrx : s.block.tstate = .rxFix ∨ s.block.tstate = .rxPre ∨ s.block.tstate = .rxRest) (hcnt : s.block.rxcnt ≤ 255)
    (ht : afterByte s = .next t) : t.inputs = s.inputs ∧ stepsLeft t.block ≤ 256 - s.block.rxcnt := by
  obtain rfl | ⟨ok, n, rfl⟩ | ⟨n, rfl⟩ := afterByte_cases ht
  · exact ⟨rfl, (stepsLeft_receive hrx).le⟩
  · rw [stepsLeft_complete]
    exact ⟨rfl, by omega⟩
  · exact ⟨rfl, le_rfl⟩

/-- The line's move at its turn takes no listed move and lessens the steps left. -/
theorem inputs_and_stepsLeft_lineStep (hs : s.Sound) {k : Nat} (hmove : oracleMove s.block k = some move)
    (ht : lineStep move s = .next t) : t.inputs = s.inputs ∧ stepsLeft t.block < stepsLeft s.block := by
  obtain ⟨hsend, ok, rfl⟩ | ⟨hr, hrx⟩ := enabled_of_oracleMove hmove
  · obtain ⟨tx, hread⟩ := hs.sending_readable le_rfl
    rw [lineStep, txDone_send ok hsend hread, Host.Outcome.next.injEq] at ht
    subst ht
    rw [stepsLeft_send hsend]
    exact inputs_and_stepsLeft_afterSend ok { s with line := s.line ++ [_] }
  · obtain ⟨hstate, hlt⟩ := receiving_iff.mp hr
    have hmax : s.block.rxtgt ≤ 255 := hs.rxtgt_le
    rw [stepsLeft_receive hstate]
    obtain rfl | ⟨x, rfl⟩ := hrx
    · rw [lineStep, rxTimeout_receiving hr, Host.Outcome.next.injEq] at ht
      subst ht
      rw [stepsLeft_complete]
      exact ⟨rfl, by omega⟩
    · rw [lineStep, rxByte_receiving x hr (hs.rxcnt_lt hr)] at ht
      obtain ⟨hinputs, hless⟩ := inputs_and_stepsLeft_afterByte
        (s := { s with block := Noninterference.withByte s.block x }) hstate (lt_of_lt_of_le hlt hmax) ht
      have hone : (Noninterference.withByte s.block x).rxcnt = s.block.rxcnt + 1 := rfl
      exact ⟨hinputs, lt_of_le_of_lt hless (by rw [hone]; omega)⟩

/-- With no move of the line enabled, the operation in CUR is due for its CHECK step (R24, R244). -/
theorem Block.Sound.check_of_no_oracleMove (hs : b.Sound) {cur : Current} (hcur : b.cur = some cur) {k : Nat}
    (hmove : oracleMove b k = none) : b.tstate = .idle ∧ b.seq = .check := by
  have hidle : b.tstate = .idle := by
    by_contra hne
    obtain hsend | hr := hs.send_or_receiving hne
    · simp [oracleMove_send hsend] at hmove
    · simp [oracleMove_receiving hr] at hmove
  have hbusy : b.seq ≠ .idle := hs.busy_iff.mp (Soundness.busy_of_current hs hcur)
  have hxfer : b.seq ≠ .xfer := fun h => hs.xfer_iff.mp h hidle
  cases hseq : b.seq with
  | idle => exact absurd hseq hbusy
  | build => exact absurd hseq hs.not_build
  | xfer => exact absurd hseq hxfer
  | check => exact ⟨hidle, rfl⟩

/-- One unattended step brings the operation in CUR nearer its end, or ends it with one response (R235, R244). -/
theorem step_unattended (hs : s.Sound) (hin : s.inputs = []) {cur : Current} (hcur : s.block.cur = some cur) :
    ∃ t, step s = .next t ∧
      ((t.Sound ∧ t.inputs = [] ∧ t.block.cur = some cur ∧ t.outbox = s.outbox ∧
          stepsLeft t.block < stepsLeft s.block) ∨
        (stepsLeft s.block = 1 ∧ t.block.busy = false ∧ t.block.cur = none ∧
          ∃ resp, t.outbox = s.outbox ++ [{ requester := cur.requester, resp := resp }])) := by
  cases hmove : oracleMove s.block s.draws with
  | some move =>
    obtain ⟨t, ht⟩ := Proofs.soundStepNeverStops s hs
    have hline : lineStep move { s with draws := s.draws + 1 } = .next t := by
      rw [← ht]
      simp only [step, advance, hin, unattended, hmove]
    obtain ⟨hsound, -, hcur', hout⟩ := Soundness.goesOn_lineStep (s := { s with draws := s.draws + 1 }) hs hline
    obtain ⟨hinputs, hless⟩ := inputs_and_stepsLeft_lineStep (s := { s with draws := s.draws + 1 }) hs hmove hline
    exact ⟨t, ht, .inl ⟨hsound, hinputs.trans hin, hcur'.trans hcur, hout, hless⟩⟩
  | none =>
    obtain ⟨hidle, hseq⟩ := hs.check_of_no_oracleMove hcur hmove
    obtain ⟨cur', resp, hcur', hnext⟩ := sequencerStep_answers hs hseq
    obtain rfl := Option.some.inj (hcur'.symm.trans hcur)
    exact ⟨_, (step_eq_sequencerStep hin hmove).trans hnext, .inr ⟨stepsLeft_idle hidle, rfl, rfl, resp, rfl⟩⟩

/-- The operation in CUR finishes within the steps left (R235, R253). -/
theorem finishes_within_stepsLeft (hs : s.Sound) (hin : s.inputs = []) {cur : Current}
    (hcur : s.block.cur = some cur) :
    ∃ n t resp, n ≤ stepsLeft s.block ∧ after n s = .next t ∧ t.block.busy = false ∧ t.block.cur = none ∧
      t.outbox = s.outbox ++ [{ requester := cur.requester, resp := resp }] := by
  induction hleft : stepsLeft s.block using Nat.strong_induction_on generalizing s with
  | _ left ih =>
    subst hleft
    obtain ⟨t, hstep, ⟨hs', hin', hcur', hout, hless⟩ | ⟨hlast, hbusy, hnone, resp, hout⟩⟩ :=
      step_unattended hs hin hcur
    · obtain ⟨n, u, resp, hn, hafter, hbusy, hnone, hout'⟩ := ih _ hless hs' hin' hcur' rfl
      exact ⟨n + 1, u, resp, by omega, (after_succ hstep n).trans hafter, hbusy, hnone, hout ▸ hout'⟩
    · exact ⟨1, t, resp, hlast.ge, (after_one s).trans hstep, hbusy, hnone, hout⟩

end Sys2Proof.Machine

namespace Sys2Proof.Proofs

open Sys2Proof.Machine

/-- Settles O43, by induction on the steps left, of which no block has more than 257. -/
theorem acceptedOperationFinishes : Obligations.AcceptedOperationFinishes := by
  intro s cur hs hin hcur
  obtain ⟨n, t, resp, hn, hdone⟩ := finishes_within_stepsLeft hs hin hcur
  exact ⟨n, t, resp, hn.trans (stepsLeft_le s.block), hdone⟩

end Sys2Proof.Proofs
end

section
/-! PROOF of O50: a variable-length receive that falls short (43_transport.md rules R241, R246, R254). -/

namespace Sys2Proof.Machine

open Sys2Proof.Claims

variable {s : State} {rest : List Input} {got rx : List Byte} {i : Instr} {op : Transaction}

/-- Bytes that leave a receive short of its count are stored, and the block waits for the next (R233). -/
theorem after_rxBytes_waiting (hawaits : Awaits s.block got.length)
    (hshort : s.block.rxcnt + got.length ≠ s.block.rxtgt)
    (hin : s.inputs = got.map (fun x => .line (.rxByte x)) ++ rest) :
    ∃ buf, memWrite s.block.rxbuf s.block.rxcnt got = .ok buf ∧
      after got.length s = .next { s with
        inputs := rest, block := { s.block with rxbuf := buf, rxcnt := s.block.rxcnt + got.length } } := by
  by_cases hnil : got = []
  · subst hnil
    have hrest : s.inputs = rest := hin
    subst hrest
    exact ⟨_, rfl, rfl⟩
  · obtain ⟨buf, hwrite, hafter⟩ := after_rxBytes hnil hawaits hin
    exact ⟨buf, hwrite, hafter.trans (afterByte_waits hshort hawaits.tgt_of_pre)⟩

/-! ### What a timeout delivers -/

/-- The block waits for a byte, and the result of a timeout before it is `rx`, the front of RXBUF (R234). -/
structure TimesOutWith (rx : List Byte) (b : Block) : Prop where
  waits : receiving b = true
  length : timeoutLength b = rx.length
  received : rx.length ≤ b.rxcnt
  held : Holds b.rxbuf rx

/-- A timeout and the CHECK step after it: the operation in CUR answers the failure and what there is of a result (R234,
R244). -/
theorem after_timeout {cur : Current} (hop : transactionOf hw i = some op) (hd : decode cur.req = .ok i)
    (hcur : s.block.cur = some cur) (h : TimesOutWith rx s.block)
    (hin : s.inputs = .line .rxTimeout :: .sequencer :: rest) :
    ∃ t, after 2 s = .next t ∧ t.inputs = rest ∧ t.block.busy = false ∧
      t.outbox = s.outbox ++ [{ requester := cur.requester, resp := op.check false rx }] := by
  have htimeout := step_rxTimeout hin h.waits
  rw [h.length] at htimeout
  have hcheck := step_check (s := complete false rx.length { s with inputs := .sequencer :: rest }) (rx := rx)
    hop hd rfl hcur rfl h.received h.held rfl
  exact ⟨_, (after_succ htimeout 1).trans ((after_one _).trans hcheck), rfl, rfl, rfl⟩

/-- The bytes that a variable-length receive delivers when it falls short after `got`: none before the first four are
in, and those four after it (R241, R254). -/
def shortfall (got : List Byte) : List Byte := if got.length < 4 then [] else got.take 4

/-- Fewer than four bytes arrive (R240, R241). -/
theorem after_shortPrefix (hstate : s.block.tstate = .rxPre) (hcnt : s.block.rxcnt = 0) (htgt : s.block.rxtgt = 4)
    (hlen : got.length < 4) (hin : s.inputs = got.map (fun x => .line (.rxByte x)) ++ rest) :
    ∃ b, after got.length s = .next { s with inputs := rest, block := b } ∧ b.cur = s.block.cur ∧
      TimesOutWith [] b := by
  have hawaits : Awaits s.block got.length := ⟨.inr (.inl hstate), fun _ => htgt, by omega, htgt ▸ by decide⟩
  obtain ⟨buf, -, hbytes⟩ := after_rxBytes_waiting hawaits (by omega) hin
  refine ⟨_, hbytes, rfl, ?_⟩
  exact
    { waits := receiving_iff.mpr ⟨.inr (.inl hstate), by dsimp only; omega⟩
      length := by simp only [timeoutLength, hstate, List.length_nil]
      received := Nat.zero_le _
      held := fun a ha => absurd ha (Nat.not_lt_zero a) }

/-- Four bytes arrive, and in all fewer than the fourth declares (R241). -/
theorem after_shortRemainder (hstate : s.block.tstate = .rxPre) (hcnt : s.block.rxcnt = 0) (htgt : s.block.rxtgt = 4)
    (hlen : 4 ≤ got.length) (hmin : 8 ≤ (byteOf got 3).toNat) (hshort : got.length < (byteOf got 3).toNat)
    (hin : s.inputs = got.map (fun x => .line (.rxByte x)) ++ rest) :
    ∃ b, after got.length s = .next { s with inputs := rest, block := b } ∧ b.cur = s.block.cur ∧
      TimesOutWith (got.take 4) b := by
  obtain ⟨pre, post, rfl, hpre⟩ : ∃ pre post, got = pre ++ post ∧ pre.length = 4 :=
    ⟨got.take 4, got.drop 4, (List.take_append_drop 4 got).symm, List.length_take_of_le hlen⟩
  have hbyte : byteOf pre 3 = byteOf (pre ++ post) 3 := by
    rw [byteOf, byteOf, List.getD_append _ _ _ _ (by omega)]
  have hmax : (byteOf (pre ++ post) 3).toNat ≤ BUFSIZE := (byteOf (pre ++ post) 3).isLt.le
  rw [List.length_append, hpre] at hshort
  rw [List.map_append, List.append_assoc] at hin
  obtain ⟨buf, hwrite, hfirst⟩ := after_lengthBytes hstate hcnt htgt hpre (by rw [hbyte]; exact hmin) hin
  rw [hbyte] at hfirst
  obtain ⟨buf', hwrite', hrest⟩ := after_rxBytes_waiting (s := { s with
      inputs := post.map (fun x => .line (.rxByte x)) ++ rest
      block := { s.block with
        rxbuf := buf, rxcnt := 4, rxtgt := (byteOf (pre ++ post) 3).toNat, tstate := .rxRest } })
    ⟨.inr (.inr rfl), nofun, hshort.le, hmax⟩ hshort.ne rfl
  have hall : memWrite s.block.rxbuf 0 (pre ++ post) = .ok buf' := by
    rw [memWrite_append hwrite, Nat.zero_add, hpre, hwrite']
  rw [List.length_append, hpre, List.take_left' hpre]
  refine ⟨_, (after_add hfirst post.length).trans hrest, rfl, ?_⟩
  exact
    { waits := receiving_iff.mpr ⟨.inr (.inr rfl), hshort⟩
      length := hpre.symm
      received := hpre.le.trans (Nat.le_add_right 4 _)
      held := fun a ha => by
        rw [Soundness.holds_of_memWrite hall a (by rw [List.length_append]; omega), List.getElem?_append_left ha] }

/-- A variable-length receive that falls short after `got`. -/
theorem after_shortReceive (hstate : s.block.tstate = .rxPre) (hcnt : s.block.rxcnt = 0) (htgt : s.block.rxtgt = 4)
    (hdecl : 4 ≤ got.length → 8 ≤ (byteOf got 3).toNat ∧ got.length < (byteOf got 3).toNat)
    (hin : s.inputs = got.map (fun x => .line (.rxByte x)) ++ rest) :
    ∃ b, after got.length s = .next { s with inputs := rest, block := b } ∧ b.cur = s.block.cur ∧
      TimesOutWith (shortfall got) b := by
  unfold shortfall
  split
  · rename_i hlt
    exact after_shortPrefix hstate hcnt htgt hlt hin
  · rename_i hge
    obtain ⟨hmin, hshort⟩ := hdecl (not_lt.mp hge)
    exact after_shortRemainder hstate hcnt htgt (not_lt.mp hge) hmin hshort hin

/-- An operation with a variable-length receive, sent and answered with too few bytes: its response is the one it gives
to a failed transfer with what the shortfall leaves (R237, R241, R244, R254). -/
theorem after_shortRoundTrip {r : Nat} {req : Request} (hop : transactionOf hw i = some op) (ha : op.argsOk = true)
    (hshape : op.shape = .var) (hd : decode req = .ok i) (hidle : s.block.busy = false) (hmay : MayPresent s r req)
    (hdecl : 4 ≤ got.length → 8 ≤ (byteOf got 3).toNat ∧ got.length < (byteOf got 3).toNat)
    (hin : s.inputs = .present r req :: (exchange got ++ .line .rxTimeout :: .sequencer :: rest)) :
    ∃ t, after (got.length + 4) s = .next t ∧ t.inputs = rest ∧ t.block.busy = false ∧
      t.outbox = s.outbox ++ [{ requester := r, resp := op.check false (shortfall got) }] := by
  obtain ⟨u, txbuf, hsent, hblock, hinputs, hout, -⟩ := after_requestSent hop ha hd hidle hmay hin
  have hvar : u.block.tshape = .var := by rw [hblock, start_tshape, hshape]
  have hcnt : u.block.rxcnt = 0 := by rw [hblock, start_rxcnt]
  have htgt : u.block.rxtgt = 4 := by rw [hblock, start_rxtgt, hshape, firstTarget]
  have hcur : u.block.cur = some ⟨r, req⟩ := by rw [hblock, start_cur, take_cur]
  rw [afterSend_var hvar] at hsent
  obtain ⟨b, hreceived, hcur', htimesOut⟩ := after_shortReceive
    (s := { u with block := { u.block with tstate := .rxPre } }) rfl hcnt htgt hdecl hinputs
  obtain ⟨t, hanswered, hrest, hbusy, hout'⟩ :=
    after_timeout (s := { u with inputs := _, block := b }) hop hd (hcur'.trans hcur) htimesOut rfl
  have hrun := (after_add hsent (got.length + 2)).trans ((after_add hreceived 2).trans hanswered)
  rw [show got.length + 4 = 2 + (got.length + 2) by omega]
  exact ⟨t, hrun, hrest, hbusy, hout ▸ hout'⟩

end Sys2Proof.Machine

namespace Sys2Proof.Proofs

open Sys2Proof.Machine Sys2Proof.Claims

/-- Settles O50: XFER_VAR passes on, with E_TIMEOUT, what the shortfall leaves. -/
theorem variableReceiveShortfallDeliversThePrefix : Obligations.VariableReceiveShortfallDeliversThePrefix := by
  intro s r tx got rest hs hidle hr hmin hmax _ hdecl hin
  exact after_shortRoundTrip (i := .xferVar tx) rfl (decide_eq_true ⟨hmin, hmax⟩) rfl (decode_encode _) hidle
    (mayPresent_of_idle hs hidle hr hmax) hdecl hin

end Sys2Proof.Proofs
end

section
/-! PROOF of O30 to O34 and O36: the transport state machine, move by move (43_transport.md rules R232 to R243). -/

namespace Sys2Proof.Machine

open Sys2Proof.Claims

variable {s t : State} {b : Block} {rest : List Input}

/-! ### The receive states, once a byte has been stored -/

/-- R239. -/
theorem afterByte_rxFix (hstate : s.block.tstate = .rxFix) :
    afterByte s = .next { s with
      block := if s.block.rxcnt = s.block.rxtgt then completed s.block true s.block.rxcnt else s.block } := by
  simp only [afterByte, hstate]
  split
  · rfl
  · rfl

/-- R241, the remainder. -/
theorem afterByte_rxRest (hstate : s.block.tstate = .rxRest) :
    afterByte s = .next { s with
      block := if s.block.rxcnt = s.block.rxtgt then completed s.block true s.block.rxtgt else s.block } := by
  simp only [afterByte, hstate]
  split
  · rfl
  · rfl

/-- R241, the first four bytes, of which byte 3 is `d` once it is in. -/
theorem afterByte_rxPre {d : Byte} (hstate : s.block.tstate = .rxPre)
    (hd : s.block.rxcnt = VAR_PREFIX → s.block.rxbuf.byteAt? 3 = some d) :
    afterByte s = .next { s with
      block := if s.block.rxcnt = VAR_PREFIX then
          if d.toNat < MINFRAME then completed s.block false VAR_PREFIX
          else { s.block with rxtgt := d.toNat, tstate := .rxRest }
        else s.block } := by
  simp only [afterByte, hstate]
  split
  · rename_i hcnt
    split
    · rename_i hshort
      exact declaredLength_short hcnt (hd hcnt) hshort
    · rename_i hlong
      exact declaredLength_frame hcnt (hd hcnt) (not_lt.mp hlong)
  · rfl

/-- A block outside a receive waits for no byte (R243). -/
theorem receiving_eq_false (h : b.tstate = .idle ∨ b.tstate = .send ∨ b.rxcnt = b.rxtgt) : receiving b = false := by
  rw [Bool.eq_false_iff]
  intro hr
  obtain ⟨hrx, hlt⟩ := receiving_iff.mp hr
  obtain hidle | hsend | hfull := h
  · simp [hidle] at hrx
  · simp [hsend] at hrx
  · omega

/-! ### What a step changes of the buffers -/

/-- RXBUF changes only in a receive, TXBUF and TXLEN only where an idle block takes an operation (R71, R236). -/
def BuffersKept (b b' : Block) : Prop :=
  (b'.rxbuf = b.rxbuf ∨ receiving b = true) ∧
    ((b'.txbuf = b.txbuf ∧ b'.txlen = b.txlen) ∨ (b.busy = false ∧ b'.tstate = .send))

theorem buffersKept_of_eq {b' : Block} (hrx : b'.rxbuf = b.rxbuf) (htx : b'.txbuf = b.txbuf)
    (hlen : b'.txlen = b.txlen) : BuffersKept b b' := ⟨.inl hrx, .inl ⟨htx, hlen⟩⟩

theorem buffersKept_afterSend (ok : Bool) (s : State) : BuffersKept s.block (afterSend ok s).block := by
  obtain ⟨ok', hnext⟩ | ⟨rx, -, hnext⟩ := afterSend_cases ok s
  · rw [hnext]
    exact buffersKept_of_eq rfl rfl rfl
  · rw [hnext]
    exact buffersKept_of_eq rfl rfl rfl

theorem buffersKept_lineStep (hs : s.Sound) {move : LineMove} (ht : lineStep move s = .next t) :
    BuffersKept s.block t.block := by
  cases move with
  | txDone ok =>
    by_cases hsend : s.block.tstate = .send
    · obtain ⟨tx, hread⟩ := hs.sending_readable le_rfl
      rw [lineStep, txDone_send ok hsend hread] at ht
      cases ht
      exact buffersKept_afterSend ok { s with line := s.line ++ [_] }
    · rw [lineStep, txDone_disabled ok hsend] at ht
      cases ht
      exact buffersKept_of_eq rfl rfl rfl
  | rxByte x =>
    cases hr : receiving s.block with
    | false =>
      rw [lineStep, rxByte_dropped x hr] at ht
      cases ht
      exact buffersKept_of_eq rfl rfl rfl
    | true =>
      rw [lineStep, rxByte_receiving x hr (hs.rxcnt_lt hr)] at ht
      obtain rfl | ⟨ok, n, rfl⟩ | ⟨n, rfl⟩ := afterByte_cases ht
      · exact ⟨.inr hr, .inl ⟨rfl, rfl⟩⟩
      · exact ⟨.inr hr, .inl ⟨rfl, rfl⟩⟩
      · exact ⟨.inr hr, .inl ⟨rfl, rfl⟩⟩
  | rxTimeout =>
    cases hr : receiving s.block with
    | false =>
      rw [lineStep, rxTimeout_disabled hr] at ht
      cases ht
      exact buffersKept_of_eq rfl rfl rfl
    | true =>
      rw [lineStep, rxTimeout_receiving hr] at ht
      cases ht
      exact buffersKept_of_eq rfl rfl rfl

theorem buffersKept_present {r : Nat} {req : Request} (ht : present r req s = .next t) :
    BuffersKept s.block t.block := by
  cases hmay : mayPresent Config.hw.nreq r req s.block with
  | false =>
    rw [present_disabled hmay] at ht
    cases ht
    exact buffersKept_of_eq rfl rfl rfl
  | true =>
    rw [present_enabled hmay] at ht
    obtain ⟨resp, hnext⟩ | ⟨b', ⟨hidle, _, _, _, -, -, -, -, rfl⟩, hnext⟩ :=
      runRequest_request (s := { s with port := .request r req }) rfl
    · cases hnext.symm.trans ht
      exact buffersKept_of_eq rfl rfl rfl
    · cases hnext.symm.trans ht
      exact ⟨.inl rfl, .inr ⟨hidle, rfl⟩⟩

theorem buffersKept_sequencerStep (hs : s.Sound) (ht : sequencerStep s = .next t) : BuffersKept s.block t.block := by
  by_cases hseq : s.block.seq = .check
  · obtain ⟨cur, resp, -, hnext⟩ := sequencerStep_answers hs hseq
    cases hnext.symm.trans ht
    exact buffersKept_of_eq rfl rfl rfl
  · rw [sequencerStep_idle hseq] at ht
    cases ht
    exact buffersKept_of_eq rfl rfl rfl

theorem block_resetStep (hs : s.Sound) {k : Nat} (ht : resetStep k s = .next t) : t.block = Block.reset := by
  by_cases hsend : s.block.tstate = .send
  · obtain ⟨tx, hread⟩ := hs.sending_readable (Nat.min_le_right k _)
    rw [resetStep_send hsend hread] at ht
    cases ht
    rfl
  · rw [resetStep_quiet k hsend] at ht
    cases ht
    rfl

theorem buffersKept_react (hs : s.Sound) {input : Input} (ht : react input s = .next t) :
    BuffersKept s.block t.block ∨ t.block = Block.reset := by
  cases input with
  | present r req => exact .inl (buffersKept_present ht)
  | line move => exact .inl (buffersKept_lineStep hs ht)
  | sequencer => exact .inl (buffersKept_sequencerStep hs ht)
  | reset k => exact .inr (block_resetStep hs ht)

theorem buffersKept_unattended (hs : s.Sound) (ht : unattended s = .next t) : BuffersKept s.block t.block := by
  unfold unattended at ht
  split at ht
  · exact buffersKept_lineStep (s := { s with draws := s.draws + 1 }) hs ht
  · exact buffersKept_sequencerStep hs ht

/-- Everything one step of a sound state can do to the buffers. -/
theorem buffersKept_step (hs : s.Sound) (ht : step s = .next t) :
    BuffersKept s.block t.block ∨ t.block = Block.reset := by
  unfold step advance at ht
  split at ht
  · exact .inl (buffersKept_unattended hs ht)
  · rename_i input rest _
    exact buffersKept_react (s := { s with inputs := rest }) hs ht

end Sys2Proof.Machine

namespace Sys2Proof.Proofs

open Sys2Proof.Machine Sys2Proof.Claims

/-- Settles O30, by the outcome and the shape. -/
theorem sendCompletionFollowsTheShape : Obligations.SendCompletionFollowsTheShape := by
  intro s ok rest tx hin hsend hlen hheld
  rw [step_txDone hin hsend hlen.symm hheld]
  cases ok with
  | false => rfl
  | true =>
    have hok : ¬ true = false := nofun
    rw [if_neg hok]
    cases hshape : s.block.tshape with
    | sendOnly => exact congrArg _ (afterSend_sendOnly hshape)
    | var => exact congrArg _ (afterSend_var hshape)
    | fixed =>
      dsimp only
      by_cases htgt : s.block.rxtgt = 0
      · rw [if_pos htgt]
        exact congrArg _ (afterSend_fixed_none hshape htgt)
      · rw [if_neg htgt]
        exact congrArg _ (afterSend_fixed hshape htgt)

/-- Settles O31: a byte stored in T_RXFIX, and a timeout there. -/
theorem fixedReceiveStopsAtItsCount : Obligations.FixedReceiveStopsAtItsCount := by
  intro s rest hstate hlt hroom
  have hr : receiving s.block = true := receiving_iff.mpr ⟨.inl hstate, hlt⟩
  refine ⟨fun x hin => ⟨_, storesByte_withByte s.block x, ?_⟩, fun hin => ?_⟩
  · rw [step_rxByte hin hr hroom]
    exact afterByte_rxFix hstate
  · have hlen : timeoutLength s.block = s.block.rxcnt := by simp only [timeoutLength, hstate]
    rw [step_rxTimeout hin hr, hlen]
    rfl

/-- Settles O32: a byte stored in T_RXPRE, the fourth of which is byte 3, and a timeout there. -/
theorem prefixReceiveReadsTheDeclaredLength : Obligations.PrefixReceiveReadsTheDeclaredLength := by
  intro s rest hstate hlt htgt
  have hr : receiving s.block = true := receiving_iff.mpr ⟨.inr (.inl hstate), by omega⟩
  refine ⟨fun x hin => ⟨_, storesByte_withByte s.block x, ?_⟩, fun hin => ?_⟩
  · have hlast (hcnt : (Noninterference.withByte s.block x).rxcnt = VAR_PREFIX) :
        (Noninterference.withByte s.block x).rxbuf.byteAt? 3 = some x := by
      rw [storesByte_withByte s.block x, if_pos (Nat.succ.inj hcnt).symm]
    have hfourth : (Noninterference.withByte s.block x).rxcnt = VAR_PREFIX ↔ s.block.rxcnt = 3 := Nat.succ_inj
    rw [step_rxByte hin hr (by rw [htgt]; decide)]
    refine (afterByte_rxPre (s := { s with inputs := rest, block := Noninterference.withByte s.block x })
      hstate hlast).trans ?_
    exact congrArg (fun b => Host.Outcome.next { s with inputs := rest, block := b }) (if_congr hfourth rfl rfl)
  · have hlen : timeoutLength s.block = 0 := by simp only [timeoutLength, hstate]
    rw [step_rxTimeout hin hr, hlen]
    rfl

/-- Settles O33: a byte stored in T_RXREST, and a timeout there. -/
theorem remainderReceiveStopsAtTheDeclaredLength : Obligations.RemainderReceiveStopsAtTheDeclaredLength := by
  intro s rest hstate hlt hroom
  have hr : receiving s.block = true := receiving_iff.mpr ⟨.inr (.inr hstate), hlt⟩
  refine ⟨fun x hin => ⟨_, storesByte_withByte s.block x, ?_⟩, fun hin => ?_⟩
  · rw [step_rxByte hin hr hroom]
    exact afterByte_rxRest hstate
  · have hlen : timeoutLength s.block = 4 := by simp only [timeoutLength, hstate]
    rw [step_rxTimeout hin hr, hlen]
    rfl

/-- Settles O34: outside a receive the block waits for no byte. -/
theorem strayBytesAreDropped : Obligations.StrayBytesAreDropped := by
  intro s x rest hin hout
  rw [step_listed hin]
  exact rxByte_dropped (s := { s with inputs := rest }) x (receiving_eq_false hout)

/-- Settles O36: what a step changes of the buffers, and what it adds to the line. -/
theorem buffersAndLineChangeOnlyInTheirStates : Obligations.BuffersAndLineChangeOnlyInTheirStates := by
  intro s t hs ht
  refine ⟨fun hrx => ?_, fun htx => ?_, fun hline => ?_⟩
  · obtain ⟨hsame | hr, -⟩ | hreset := buffersKept_step hs ht
    · exact absurd hsame hrx
    · exact .inl (receiving_iff.mp hr).1
    · exact .inr hreset
  · obtain ⟨-, ⟨hbuf, hlen⟩ | htaken⟩ | hreset := buffersKept_step hs ht
    · exact absurd htx (by simp [hbuf, hlen])
    · exact .inl htaken
    · exact .inr hreset
  · exact (LineRecord.grows_step hs ht).resolve_left hline

end Sys2Proof.Proofs
end

section
/-! PROOF of O18 to O21: the raw transfers (43_transport.md rules R245 to R247), and which operations report E_SEND and
E_MDEC (R197, R247, R273). -/

namespace Sys2Proof.Machine

open Sys2Proof.Claims

variable {s t : State} {i : Instr} {op : Transaction} {e : ErrorClass} {resp : Response} {ok : Bool} {rx : List Byte}

/-! ### The raw transfers -/

/-- The transmit lengths the raw transfers accept (R245, D40). -/
theorem xferArgsOk_iff (data : List Byte) : xferArgsOk data = true ↔ data.length ≠ 0 ∧ data.length ≤ 256 := by
  rw [xferArgsOk, decide_eq_true_iff, BUFSIZE]
  omega

/-- The answer to a raw round trip is the one the claims describe (R245, R246). -/
theorem xferCheck_eq_rawAnswer : xferCheck hw = rawAnswer := by
  funext ok rx
  cases ok with
  | false => rfl
  | true => rfl

/-- The answer to a raw send (R247). -/
theorem xferSend_check (data : List Byte) : (xferSend hw data).check = fun ok _ =>
    { status := if ok then composite 0 0 else composite (hw.errorCode .send) 0, outs := { ok := some ok } } := by
  funext ok rx
  cases ok with
  | false => rfl
  | true => rfl

/-! ### The classes a response can report -/

/-- The response reports the error class `e` (R30, R273). -/
def Reports (e : ErrorClass) (resp : Response) : Prop := errorClassOf resp.status = hw.errorCode e

/-- A success reports no class (R272, R273). -/
theorem not_reports_success {st : Byte} (h : resp.status = composite 0 st) : ¬ Reports e resp := by
  rw [Reports, h, errorClassOf_composite]
  exact (hw.errorCode_ne e).symm

/-- An error reports its own class alone (R273). -/
theorem eq_of_reports {e' : ErrorClass} {st : Byte} (h : resp.status = composite (hw.errorCode e') st)
    (hrep : Reports e resp) : e' = e := by
  rw [Reports, h, errorClassOf_composite] at hrep
  exact hw.errorCode_inj e' e hrep

/-- ENCODE reports E_FORMAT (R131). -/
theorem encodeResponse_reports {dev cmd opt : Byte} {data : List Byte}
    (h : Reports e (encodeResponse hw dev cmd opt data)) : e = .format := by
  by_cases hlen : data.length ≤ 247
  · rw [encodeResponse_of_le dev cmd opt hlen] at h
    exact absurd h (not_reports_success (st := 0) rfl)
  · rw [encodeResponse_of_gt dev cmd opt (not_le.mp hlen)] at h
    exact (eq_of_reports rfl h).symm

/-- Validation fails with E_RECV or E_CRC (R133). -/
theorem validate_error {c : Config} {f : List Byte} {cmd hdr : Byte} (h : validate c f cmd hdr = .error e) :
    e = .recv ∨ e = .crc := by
  unfold validate at h
  split_ifs at h
  · exact .inl (Except.error.inj h).symm
  · exact .inl (Except.error.inj h).symm
  · exact .inl (Except.error.inj h).symm
  · exact .inr (Except.error.inj h).symm

theorem validateResponse_reports {f : List Byte} {cmd hdr : Byte} (h : Reports e (validateResponse hw f cmd hdr)) :
    e = .recv ∨ e = .crc := by
  cases hv : validate hw f cmd hdr with
  | ok st =>
    simp only [validateResponse, hv] at h
    exact absurd h (not_reports_success rfl)
  | error e' =>
    simp only [validateResponse, hv] at h
    exact eq_of_reports rfl h ▸ validate_error hv

/-- A round trip fails with E_TIMEOUT, E_RECV or E_CRC (R151). -/
theorem roundTrip_error {cmd : Command} (h : roundTrip cmd ok rx = .error e) : e = .timeout ∨ e = .recv ∨ e = .crc := by
  cases ok with
  | false => exact .inl (Except.error.inj h).symm
  | true => exact .inr (validate_error (c := hw) (f := rx) (cmd := hw.command cmd) (hdr := 0xFE) h)

/-! ### The classes an operation can report -/

/-- What a response of class `e` says of its operation and of the step that delivers it: E_SEND and E_MDEC have
operations of their own, and E_MDEC its CHECK step (R247, R197). -/
def MayReport (i : Instr) (p : Port) : ErrorClass → Prop
  | .send => ∃ data, i = .xferSend data
  | .mdec => ReadsBack i ∧ ∃ r, p = .resume r
  | .timeout => True
  | .crc => True
  | .format => True
  | .recv => True

/-- The class of a rejection or a failed transfer, and the answer at the CHECK step, of the operation `i`. -/
inductive AnswerForm (i : Instr) : ErrorClass → (Bool → List Byte → Response) → Prop
  /-- A validated response, with the device status (R151, R165, R203). -/
  | validated {cmd : Command} {sentinel : Outputs} {good : Byte → List Byte → Response} :
      (∀ st rx, (good st rx).status = composite 0 st) → AnswerForm i .timeout (answerOf cmd sentinel good)
  /-- A motion read-back (R194). -/
  | motion {cmd : Command} {mask cmode : Byte} : ReadsBack i →
      AnswerForm i .timeout (answerOf cmd readBackSentinel (readBack mask cmode))
  /-- A raw round trip (R245, R246). -/
  | raw : AnswerForm i .timeout rawAnswer
  /-- A raw send (R247). -/
  | send {data : List Byte} : i = .xferSend data → AnswerForm i .send (xferSend hw data).check

theorem answerForm_motorwrite {argsOk : Bool} {tx : List Byte} {mask cmode : Byte}
    (hback : mask ≠ 0x00 → ReadsBack i) :
    AnswerForm i (motorwrite hw argsOk tx mask cmode).failClass (motorwrite hw argsOk tx mask cmode).check := by
  by_cases hmask : mask = NORETURN
  · simp only [motorwrite, if_pos hmask, acknowledged_eq_answerOf]
    exact .validated fun _ _ => rfl
  · simp only [motorwrite, if_neg hmask, motionFinish_eq_answerOf]
    exact .motion (hback hmask)

theorem answerForm_typedRead (i : Instr) (dev : Byte) (addr : HalfWord) (size : Byte) (sent : Word)
    (decodeAs : List Byte → Word) :
    AnswerForm i .timeout (typedRead hw dev addr size sent decodeAs).check := by
  rw [typedRead_check]
  exact .validated fun _ _ => rfl

theorem answerForm_memwrite (i : Instr) (dev : Byte) (addr : HalfWord) (data : List Byte) (wopt : Byte) :
    AnswerForm i .timeout (memwrite hw dev addr data wopt).check := by
  rw [memwrite_check]
  exact .validated fun _ _ => rfl

/-- The forms of all transport operations. -/
theorem answerForm_of_transaction (hop : transactionOf hw i = some op) : AnswerForm i op.failClass op.check := by
  cases i <;> simp only [transactionOf, reduceCtorEq, Option.some.injEq] at hop <;> subst hop
  case memread dev addr size =>
    rw [memread_check]
    exact .validated fun _ _ => rfl
  case memreadU8 | memreadI16 | memreadU16 | memreadI32 | memreadU32 => exact answerForm_typedRead _ _ _ _ _ _
  case memwrite | memwriteU8 | memwriteI16 | memwriteU16 | memwriteI32 | memwriteU32 =>
    exact answerForm_memwrite _ _ _ _ _
  case motorread dev mask cmode =>
    rw [motorread_check]
    exact .motion ⟨dev, mask, cmode, .inl rfl⟩
  case motorwriteSw dev tsw mask cmode =>
    exact answerForm_motorwrite fun h => ⟨dev, mask, cmode, .inr ⟨h, .inl ⟨tsw, rfl⟩⟩⟩
  case motorwriteT dev n t0 t1 t2 mask cmode =>
    exact answerForm_motorwrite fun h => ⟨dev, mask, cmode, .inr ⟨h, .inr (.inl ⟨n, t0, t1, t2, rfl⟩)⟩⟩
  case motorwriteT1 dev t0 mask cmode =>
    exact answerForm_motorwrite fun h => ⟨dev, mask, cmode, .inr ⟨h, .inr (.inr (.inl ⟨t0, rfl⟩))⟩⟩
  case motorwriteT2 dev t0 t1 mask cmode =>
    exact answerForm_motorwrite fun h => ⟨dev, mask, cmode, .inr ⟨h, .inr (.inr (.inr (.inl ⟨t0, t1, rfl⟩)))⟩⟩
  case motorwriteT3 dev t0 t1 t2 mask cmode =>
    exact answerForm_motorwrite fun h => ⟨dev, mask, cmode, .inr ⟨h, .inr (.inr (.inr (.inr ⟨t0, t1, t2, rfl⟩)))⟩⟩
  case xferFixed | xferVar =>
    simp only [xferFixed, xferVar, xferCheck_eq_rawAnswer]
    exact .raw
  case xferSend data => exact .send rfl

/-- An answer to a round trip reports what its failure or its good answer may report. -/
theorem mayReport_answerOf {p : Port} {cmd : Command} {sentinel : Outputs} {good : Byte → List Byte → Response}
    (hgood : ∀ st, Reports e (good st rx) → MayReport i p e) (hrep : Reports e (answerOf cmd sentinel good ok rx)) :
    MayReport i p e := by
  cases hround : roundTrip cmd ok rx with
  | ok st =>
    simp only [answerOf, hround] at hrep
    exact hgood st hrep
  | error e' =>
    simp only [answerOf, hround] at hrep
    obtain rfl := eq_of_reports rfl hrep
    obtain rfl | rfl | rfl := roundTrip_error hround
    · trivial
    · trivial
    · trivial

/-- The device status passes, or the decode fails with E_MDEC (R194, R197). -/
theorem readBack_reports {mask cmode st : Byte} (hrep : Reports e (readBack mask cmode st rx)) : e = .mdec := by
  by_cases hlen : rx.length = 9 + 2 * setBits mask
  · simp only [readBack, if_pos hlen] at hrep
    exact absurd hrep (not_reports_success rfl)
  · simp only [readBack, if_neg hlen] at hrep
    exact (eq_of_reports rfl hrep).symm

/-- At its CHECK step an operation reports only what it may. -/
theorem AnswerForm.mayReport {c : ErrorClass} {answer : Bool → List Byte → Response} (h : AnswerForm i c answer)
    {r : Nat} (hrep : Reports e (answer ok rx)) : MayReport i (.resume r) e := by
  cases h with
  | validated hgood => exact mayReport_answerOf (fun st h => absurd h (not_reports_success (hgood st rx))) hrep
  | motion hback =>
    refine mayReport_answerOf (fun st h => ?_) hrep
    rw [readBack_reports h]
    exact ⟨hback, r, rfl⟩
  | raw =>
    cases ok with
    | true => exact absurd hrep (not_reports_success rfl)
    | false =>
      obtain rfl := eq_of_reports rfl hrep
      trivial
  | send hsend =>
    cases ok with
    | true => exact absurd hrep (not_reports_success rfl)
    | false =>
      obtain rfl := eq_of_reports rfl hrep
      exact ⟨_, hsend⟩

/-- A rejection reports only what the operation may (R250). -/
theorem AnswerForm.mayReport_failClass {c : ErrorClass} {answer : Bool → List Byte → Response}
    (h : AnswerForm i c answer) (p : Port) : MayReport i p c := by
  cases h with
  | validated _ => trivial
  | motion _ => trivial
  | raw => trivial
  | send hsend => exact ⟨_, hsend⟩

/-- An operation with no transport reports only what it may (R131, R133, R191). -/
theorem mayReport_pure (hop : transactionOf hw i = none) {p : Port} :
    ∃ resp, (∀ s, exec i s = finish resp s) ∧ (Reports e resp → MayReport i p e) := by
  cases i <;> simp only [transactionOf, reduceCtorEq] at hop
  case encode dev cmd opt data =>
    refine ⟨encodeResponse hw dev cmd opt data, fun _ => rfl, fun hrep => ?_⟩
    rw [encodeResponse_reports hrep]
    trivial
  case validate data cmd hdr =>
    refine ⟨validateResponse hw data cmd hdr, fun _ => rfl, fun hrep => ?_⟩
    obtain rfl | rfl := validateResponse_reports hrep
    · trivial
    · trivial
  case fieldcount mask => exact ⟨_, fun _ => rfl, fun hrep => absurd hrep (not_reports_success rfl)⟩

/-- A response added to the outbox is the one delivered. -/
theorem resp_of_deliver {r : Nat} {d : Delivery} (h : (s.deliver r resp).outbox = s.outbox ++ [d]) : d.resp = resp := by
  rw [deliver_outbox, List.append_cancel_left_eq, List.singleton_inj] at h
  rw [← h]

/-- Every response an operation delivers reports only what it may. -/
theorem mayReport_of_exec {d : Delivery} (ht : exec i s = .next t) (hout : t.outbox = s.outbox ++ [d])
    (hrep : Reports e d.resp) : MayReport i s.port e := by
  cases hop : transactionOf hw i with
  | none =>
    obtain ⟨resp, hexec, hmay⟩ := mayReport_pure (e := e) (p := s.port) hop
    obtain ⟨r, req, -, rfl⟩ | ⟨r, -, rfl⟩ := finish_cases (hexec s ▸ ht)
    · exact hmay (resp_of_deliver hout ▸ hrep)
    · exact hmay (resp_of_deliver (s := { s with block := s.block.release }) hout ▸ hrep)
  | some op =>
    have hform := answerForm_of_transaction hop
    rw [exec_transaction hop] at ht
    obtain ⟨r, req, -, -, rfl⟩ | ⟨r, req, -, -, -, rfl⟩ | ⟨r, req, buf, -, -, -, -, rfl⟩ | ⟨r, rx, hp, -, rfl⟩ :=
      transact_cases ht
    · obtain rfl := eq_of_reports rfl (resp_of_deliver hout ▸ hrep)
      trivial
    · obtain rfl := eq_of_reports rfl (resp_of_deliver hout ▸ hrep)
      exact hform.mayReport_failClass s.port
    · simp at hout
    · rw [hp]
      exact hform.mayReport (resp_of_deliver (s := { s with block := s.block.release }) hout ▸ hrep)

end Sys2Proof.Machine

namespace Sys2Proof.Proofs

open Sys2Proof.Machine Sys2Proof.Claims

/-- Settles O18: XFER_FIXED's argument check and answer, in the terms of its `Transaction`. -/
theorem xferFixedFollowsItsRule : Obligations.XferFixedFollowsItsRule := by
  intro data rxlen
  have hrule := followsRule_of_transaction (i := .xferFixed data rxlen) rfl (xferArgsOk_iff data)
  simp only [xferFixed, xferCheck_eq_rawAnswer] at hrule
  exact hrule

/-- Settles O19: XFER_VAR's argument check and answer, in the terms of its `Transaction`. -/
theorem xferVarFollowsItsRule : Obligations.XferVarFollowsItsRule := by
  intro data
  have hrule := followsRule_of_transaction (i := .xferVar data) rfl (xferArgsOk_iff data)
  simp only [xferVar, xferCheck_eq_rawAnswer] at hrule
  exact hrule

/-- Settles O20: XFER_SEND's argument check and answer, in the terms of its `Transaction`. -/
theorem xferSendFollowsItsRule : Obligations.XferSendFollowsItsRule := by
  intro data
  have hrule := followsRule_of_transaction (i := .xferSend data) rfl (xferArgsOk_iff data)
  rw [xferSend_check] at hrule
  exact hrule

/-- Settles O21: what an operation that reports each of the two classes is. -/
theorem sendAndDecodeErrorsHaveTheirOwnOperations : Obligations.SendAndDecodeErrorsHaveTheirOwnOperations :=
  fun _ _ _ _ ht hout => ⟨mayReport_of_exec (e := .send) ht hout, mayReport_of_exec (e := .mdec) ht hout⟩

end Sys2Proof.Proofs
end

section
/-! PROOF of O24, O26, O27 and O28: the host port and the sequencer's turn (43_transport.md rules R244, R248, R252,
R253). -/

namespace Sys2Proof.Machine

variable {s : State}

/-- The sequencer's turn with a CHECK due runs the operation in CUR for its requester (R244). -/
theorem sequencerStep_resumes {cur : Current} {i : Instr} (hseq : s.block.seq = .check) (hcur : s.block.cur = some cur)
    (hd : decode cur.req = .ok i) : sequencerStep s = exec i { s with port := .resume cur.requester } := by
  simp only [sequencerStep, hseq, resumeOperation, hcur]
  exact runRequest_ok hd _

end Sys2Proof.Machine

namespace Sys2Proof.Proofs

open Sys2Proof.Machine

/-- Settles O24: a permitted Present runs its request, which decodes. -/
theorem stepRunsThePresentedOperation : Obligations.StepRunsThePresentedOperation := by
  intro s r req rest i hin hmay hd
  rw [step_present hin hmay, runRequest_ok hd]

/-- Settles O26: the guard of a Present step is false. -/
theorem waitingRequesterHasNoMove : Obligations.WaitingRequesterHasNoMove := by
  intro s r req rest hin hnot
  have hmay : mayPresent Config.hw.nreq r req s.block = false := Bool.eq_false_iff.mpr (mt mayPresent_iff_claim.mp hnot)
  rw [step_listed hin]
  exact present_disabled (s := { s with inputs := rest }) hmay

/-- Settles O27: a turn given, and a turn that falls to the sequencer because an idle transport draws no move. -/
theorem checkStepResumesTheLatchedOperation : Obligations.CheckStepResumesTheLatchedOperation := by
  intro s cur i hseq hidle hcur hd
  refine ⟨fun rest hin => ?_, fun hin => ?_⟩
  · rw [step_listed hin]
    exact sequencerStep_resumes (s := { s with inputs := rest }) hseq hcur hd
  · rw [step_eq_sequencerStep hin (oracleMove_idle hidle s.draws)]
    exact sequencerStep_resumes hseq hcur hd

/-- Settles O28: a request to a busy block cannot take the transport, so it is answered at once. -/
theorem busyBlockIsUntouchedByRequests : Obligations.BusyBlockIsUntouchedByRequests := by
  intro s r req rest hbusy hin hmay
  obtain ⟨t, ht, -, hline, ⟨hblock, resp, hout⟩ | ⟨hidle, -⟩⟩ :=
    requestIsAnsweredOrTakesTheTransport s r req rest hin hmay
  · exact ⟨t, resp, ht, hblock, hline, hout⟩
  · exact absurd hbusy (by simp [hidle])

end Sys2Proof.Proofs
end

section
/-! PROOF of O45: what every response says of its operation (60_exceptions.md rules R272 to R277). A status is composed
once, where its response is made; and only a Present or a CHECK step delivers a response, one at the most. -/

namespace Sys2Proof.Machine

open Sys2Proof.Claims

variable {s t : State} {i : Instr} {resp : Response}

/-! ### The statuses a response is made with -/

/-- A success names no class (R272). -/
theorem composedOfOneClass_success (st : Byte) : ComposedOfOneClass (composite 0 st) :=
  .inl (errorClassOf_composite 0 st)

/-- An error names its own class, over a low byte of 0 (R274). -/
theorem composedOfOneClass_error (e : ErrorClass) : ComposedOfOneClass (composite (hw.errorCode e) 0) :=
  .inr ⟨e, errorClassOf_composite _ 0, fun _ => deviceStatusOf_composite _ 0⟩

/-- A motion decode failure names its class over the device status byte (R275). -/
theorem composedOfOneClass_mdec (st : Byte) : ComposedOfOneClass (composite (hw.errorCode .mdec) st) :=
  .inr ⟨.mdec, errorClassOf_composite _ st, fun hne => absurd rfl hne⟩

/-! ### The answers of the operations -/

theorem composedOfOneClass_encodeResponse (dev cmd opt : Byte) (data : List Byte) :
    ComposedOfOneClass (encodeResponse hw dev cmd opt data).status := by
  by_cases hlen : data.length ≤ 247
  · rw [encodeResponse_of_le dev cmd opt hlen]
    exact composedOfOneClass_success 0
  · rw [encodeResponse_of_gt dev cmd opt (not_le.mp hlen)]
    exact composedOfOneClass_error .format

theorem composedOfOneClass_validateResponse (f : List Byte) (cmd hdr : Byte) :
    ComposedOfOneClass (validateResponse hw f cmd hdr).status := by
  unfold validateResponse
  split
  · exact composedOfOneClass_success _
  · exact composedOfOneClass_error _

theorem composedOfOneClass_readBack (mask cmode st : Byte) (rx : List Byte) :
    ComposedOfOneClass (readBack mask cmode st rx).status := by
  by_cases hlen : rx.length = 9 + 2 * setBits mask
  · simp only [readBack, if_pos hlen]
    exact composedOfOneClass_success st
  · simp only [readBack, if_neg hlen]
    exact composedOfOneClass_mdec st

/-- A round trip answers with its own error or with its good answer, never with both (R277). -/
theorem composedOfOneClass_answerOf {cmd : Command} {sentinel : Outputs} {good : Byte → List Byte → Response} {ok : Bool}
    {rx : List Byte} (hgood : ∀ st, ComposedOfOneClass (good st rx).status) :
    ComposedOfOneClass (answerOf cmd sentinel good ok rx).status := by
  unfold answerOf
  split
  · exact composedOfOneClass_error _
  · exact hgood _

/-- At its CHECK step a transport operation answers with one class at the most. -/
theorem AnswerForm.composedOfOneClass {c : ErrorClass} {answer : Bool → List Byte → Response} (h : AnswerForm i c answer)
    (ok : Bool) (rx : List Byte) : ComposedOfOneClass (answer ok rx).status := by
  cases h with
  | validated hgood => exact composedOfOneClass_answerOf fun st => hgood st rx ▸ composedOfOneClass_success st
  | motion _ => exact composedOfOneClass_answerOf fun st => composedOfOneClass_readBack _ _ st rx
  | raw =>
    cases ok with
    | true => exact composedOfOneClass_success 0
    | false => exact composedOfOneClass_error .timeout
  | send _ =>
    cases ok with
    | true => exact composedOfOneClass_success 0
    | false => exact composedOfOneClass_error .send

/-- An operation with no transport answers with one class at the most (R131, R133, R191). -/
theorem exec_pure_composedOfOneClass (hop : transactionOf hw i = none) (s : State) :
    ∃ resp, exec i s = finish resp s ∧ ComposedOfOneClass resp.status := by
  cases i <;> simp only [transactionOf, reduceCtorEq] at hop
  case encode dev cmd opt data => exact ⟨_, rfl, composedOfOneClass_encodeResponse dev cmd opt data⟩
  case validate data cmd hdr => exact ⟨_, rfl, composedOfOneClass_validateResponse data cmd hdr⟩
  case fieldcount mask => exact ⟨_, rfl, composedOfOneClass_success 0⟩

/-! ### The steps that deliver -/

/-- From `out` to `out'` no response is delivered, or one, whose status names one class at the most. -/
def DeliversOneClass (out out' : List Delivery) : Prop :=
  out' = out ∨ ∃ d, out' = out ++ [d] ∧ ComposedOfOneClass d.resp.status

theorem deliversOneClass_deliver (s : State) (r : Nat) (h : ComposedOfOneClass resp.status) :
    DeliversOneClass s.outbox (s.deliver r resp).outbox :=
  .inr ⟨_, deliver_outbox s r resp, h⟩

theorem deliversOneClass_finish (h : ComposedOfOneClass resp.status) (ht : finish resp s = .next t) :
    DeliversOneClass s.outbox t.outbox := by
  obtain ⟨r, req, -, rfl⟩ | ⟨r, -, rfl⟩ := finish_cases ht
  · exact deliversOneClass_deliver s r h
  · exact deliversOneClass_deliver { s with block := s.block.release } r h

/-- An operation answers at most once in a step, and with one class at the most: a failed argument check, a rejection
and what the transfer received exclude each other (R277). -/
theorem deliversOneClass_exec (ht : exec i s = .next t) : DeliversOneClass s.outbox t.outbox := by
  cases hop : transactionOf hw i with
  | none =>
    obtain ⟨resp, hexec, hresp⟩ := exec_pure_composedOfOneClass hop s
    exact deliversOneClass_finish hresp (hexec ▸ ht)
  | some op =>
    rw [exec_transaction hop] at ht
    obtain ⟨r, req, -, -, rfl⟩ | ⟨r, req, -, -, -, rfl⟩ | ⟨r, req, buf, -, -, -, -, rfl⟩ | ⟨r, rx, -, -, rfl⟩ :=
      transact_cases ht
    · exact deliversOneClass_deliver s r (composedOfOneClass_error .format)
    · exact deliversOneClass_deliver s r (composedOfOneClass_error op.failClass)
    · exact .inl rfl
    · exact deliversOneClass_deliver { s with block := s.block.release } r
        ((answerForm_of_transaction hop).composedOfOneClass _ rx)

theorem deliversOneClass_runRequest {req : Request} (ht : runRequest req s = .next t) :
    DeliversOneClass s.outbox t.outbox := by
  cases hd : decode req with
  | ok i => exact deliversOneClass_exec (runRequest_ok hd s ▸ ht)
  | error e =>
    exact deliversOneClass_finish (resp := raised hw .format {}) (composedOfOneClass_error .format)
      ((runRequest_error hd s).symm.trans ht)

theorem deliversOneClass_present {r : Nat} {req : Request} (ht : present r req s = .next t) :
    DeliversOneClass s.outbox t.outbox := by
  cases hmay : mayPresent hw.nreq r req s.block with
  | true => exact deliversOneClass_runRequest (s := { s with port := .request r req }) (present_enabled hmay ▸ ht)
  | false =>
    cases (present_disabled hmay).symm.trans ht
    exact .inl rfl

theorem deliversOneClass_sequencerStep (ht : sequencerStep s = .next t) : DeliversOneClass s.outbox t.outbox := by
  by_cases hseq : s.block.seq = .check
  · simp only [sequencerStep, hseq, resumeOperation] at ht
    split at ht
    · cases ht
    · rename_i cur _
      exact deliversOneClass_runRequest (s := { s with port := .resume cur.requester }) ht
  · cases (sequencerStep_idle hseq).symm.trans ht
    exact .inl rfl

/-! ### The steps that deliver nothing -/

@[simp] theorem outbox_afterSend (ok : Bool) (s : State) : (afterSend ok s).outbox = s.outbox := by
  obtain ⟨ok', h⟩ | ⟨rx, -, h⟩ := afterSend_cases ok s
  · rw [h, complete_outbox]
  · rw [h]

theorem outbox_txDone {ok : Bool} (ht : txDone ok s = .next t) : t.outbox = s.outbox := by
  by_cases hsend : s.block.tstate = .send
  · simp only [txDone, hsend] at ht
    obtain ⟨tx, -, ht⟩ := LineRecord.orFault_eq_next ht
    cases ht
    exact outbox_afterSend ok _
  · cases (txDone_disabled ok hsend).symm.trans ht
    rfl

theorem outbox_rxByte {x : Byte} (ht : rxByte x s = .next t) : t.outbox = s.outbox := by
  unfold rxByte at ht
  split at ht
  · obtain ⟨buf, -, ht⟩ := LineRecord.orFault_eq_next ht
    obtain rfl | ⟨_, _, rfl⟩ | ⟨_, rfl⟩ := afterByte_cases ht
    · rfl
    · rfl
    · rfl
  · cases ht
    rfl

theorem outbox_rxTimeout (ht : rxTimeout s = .next t) : t.outbox = s.outbox := by
  cases hr : receiving s.block with
  | true =>
    cases (rxTimeout_receiving hr).symm.trans ht
    rfl
  | false =>
    cases (rxTimeout_disabled hr).symm.trans ht
    rfl

/-- The line answers nobody: what it does is reported at the CHECK step (R244). -/
theorem outbox_lineStep {move : LineMove} (ht : lineStep move s = .next t) : t.outbox = s.outbox := by
  cases move with
  | txDone ok => exact outbox_txDone ht
  | rxByte x => exact outbox_rxByte ht
  | rxTimeout => exact outbox_rxTimeout ht

/-- A reset answers nobody, not even the requester of the operation it aborts (R303). -/
theorem outbox_resetStep {k : Nat} (ht : resetStep k s = .next t) : t.outbox = s.outbox := by
  by_cases hsend : s.block.tstate = .send
  · simp only [resetStep, hsend] at ht
    obtain ⟨tx, -, ht⟩ := LineRecord.orFault_eq_next ht
    cases ht
    rfl
  · cases (resetStep_quiet k hsend).symm.trans ht
    rfl

/-! ### One step -/

theorem deliversOneClass_react {input : Input} (ht : react input s = .next t) : DeliversOneClass s.outbox t.outbox := by
  cases input with
  | present r req => exact deliversOneClass_present ht
  | line move => exact .inl (outbox_lineStep ht)
  | sequencer => exact deliversOneClass_sequencerStep ht
  | reset k => exact .inl (outbox_resetStep ht)

theorem deliversOneClass_unattended (ht : unattended s = .next t) : DeliversOneClass s.outbox t.outbox := by
  unfold unattended at ht
  split at ht
  · exact .inl (outbox_lineStep (s := { s with draws := s.draws + 1 }) ht)
  · exact deliversOneClass_sequencerStep ht

/-- Everything one step of any state, sound or not, can deliver. -/
theorem deliversOneClass_step (ht : step s = .next t) : DeliversOneClass s.outbox t.outbox := by
  unfold step advance at ht
  split at ht
  · exact deliversOneClass_unattended ht
  · rename_i input rest _
    exact deliversOneClass_react (s := { s with inputs := rest }) ht

end Sys2Proof.Machine

namespace Sys2Proof.Proofs

open Sys2Proof.Machine

/-- Settles O45: a step is the move of one agent, and each agent's move delivers at most one response, composed of one
class at the most. -/
theorem deliveredStatusNamesOneClass : Obligations.DeliveredStatusNamesOneClass := fun _ _ => deliversOneClass_step

end Sys2Proof.Proofs
end

section
/-! PROOF of O37, O38 and O39: the state after reset, and a reset of any state (70_reset_and_hazards.md rules R301, R303).
A reset reads TXBUF alone, in T_SEND, so it needs no invariant but the frame itself. -/

namespace Sys2Proof.Machine

/-- The first bytes of a list at the front of a buffer stand there too. -/
theorem Holds.take {m : Memory} {xs : List Byte} (h : Holds m xs) (k : Nat) : Holds m (xs.take k) := by
  intro a ha
  have hlt : a < k ∧ a < xs.length := by simpa using ha
  rw [h a hlt.2, List.getElem?_take_of_lt hlt.1]

/-- No buffer byte has a value after reset (R301). -/
theorem reset_byteAt? (a : Nat) : Block.reset.txbuf.byteAt? a = none ∧ Block.reset.rxbuf.byteAt? a = none := ⟨rfl, rfl⟩

/-- No operation is outstanding after reset (R301, R248). -/
theorem reset_outstanding (r : Nat) : outstanding Block.reset r = false := rfl

/-- What a reset does to any state whose frame stands in TXBUF: the line's record apart, the whole next state (R303). -/
theorem resetStep_of_holds {s : State} {tx : List Byte} (k : Nat) (hlen : tx.length = s.block.txlen)
    (hheld : Holds s.block.txbuf tx) :
    ∃ line, resetStep k s = .next { s with block := Block.reset, port := .quiet, line := line } ∧
      (line = s.line ∨ (s.block.tstate = .send ∧ line = s.line ++ [{ bytes := tx.take k, how := .cut }])) := by
  by_cases hsend : s.block.tstate = .send
  · have hread : memRead s.block.txbuf s.block.txlen 0 (min k s.block.txlen) = .ok (tx.take k) := by
      rw [← hlen, ← List.length_take]
      exact memRead_of_holds (hheld.take k) (List.length_take_le' k tx)
    exact ⟨_, resetStep_send hsend hread, .inr ⟨hsend, rfl⟩⟩
  · exact ⟨_, resetStep_quiet k hsend, .inl rfl⟩

end Sys2Proof.Machine

namespace Sys2Proof.Proofs

open Sys2Proof.Machine

/-- Settles O38: what reaches the line is read from the front of TXBUF, where the frame stands. -/
theorem resetAbortsWithoutResponse : Obligations.ResetAbortsWithoutResponse := by
  intro s k rest tx hin hlen hheld
  obtain ⟨line, hreset, hline⟩ := resetStep_of_holds (s := { s with inputs := rest }) k hlen hheld
  exact ⟨_, (step_listed hin).trans hreset, rfl, rfl, rfl, rfl, rfl, rfl, rfl, rfl, rfl, reset_byteAt?, hline⟩

/-- Settles O37: the fields of the reset state, and what its empty buffers and CUR answer. -/
theorem resetLeavesTheBlockIdle : Obligations.ResetLeavesTheBlockIdle :=
  ⟨rfl, rfl, rfl, rfl, rfl, rfl, rfl, reset_byteAt?, reset_outstanding, rfl⟩

/-- Settles O39: an idle block with empty buffers is sound. -/
theorem resetIsSound : Obligations.ResetIsSound := Soundness.reset_sound

end Sys2Proof.Proofs
end
